-- ==== Sys2Proof/Word.lean ====
section
/-! DEFINITION. The data sizes of the architecture (00_scope R11): the widths every other file names. -/

namespace Sys2Proof

/-- Byte, 8 bits (R11). -/
abbrev Byte := BitVec 8
/-- Word ("слово"), 16 bits (R11). -/
abbrev Word := BitVec 16
/-- Doubleword, 32 bits (R11); also one single-precision element (10_state R44). -/
abbrev Dword := BitVec 32
/-- Quadword, 64 bits: one MMX operand (R11). -/
abbrev Qword := BitVec 64
/-- One XMM operand, 128 bits: four single-precision elements (R11). -/
abbrev Xword := BitVec 128
/-- One coprocessor data register, 80 bits (10_state R26). -/
abbrev Fpr80 := BitVec 80
/-- A linear or effective address, 32 bits (20_memory R72). -/
abbrev Addr := BitVec 32
/-- A 3-bit register code (10_state R20): which kind of register it names is fixed by the opcode (30_encoding R105). -/
abbrev Reg := BitVec 3

end Sys2Proof
end

