-- ==== Sys2Proof/Config.lean ====
section
/-! DEFINITION. The parameters of 00_scope R9 that name a kind of machine, and the FREE VALUES: what the spec leaves open
(93_implementation_defined, treatments "any value" and "parameter"). A free value is an opaque constant with no body:
nothing in Lean can evaluate it, so a claim that holds is true whatever it is. -/

namespace Sys2Proof

/-- `Gen`: the processor generation (R2, R9). -/
inductive Gen where
  | pentiumMMX
  | pentiumII
  | pentiumIII
  deriving DecidableEq, Repr

/-- `CodeSize`: default operand and address size of the code segment (R9). -/
inductive CodeSize where
  | c16
  | c32
  deriving DecidableEq, Repr

/-- The two approximation functions of 47_xmm_arithmetic_compare R290. -/
inductive ApproxOp where
  | rcp
  | rsqrt
  deriving DecidableEq, Repr

namespace Config

/-- `TscDraw` (R9, G16): the raw draw behind one read of the time-stamp counter, by the number of the draw. -/
opaque tscDraw : Nat → Qword

/-- G15: what RDMSR finds in an existing MSR other than the TSC, by the number of the draw and of the MSR. -/
opaque msrDraw : Nat → Dword → Qword

/-- G22, G34: a byte FXSAVE writes where its content is not specified, by the number of the draw and the offset in the
512-byte area. -/
opaque fxsaveByte : Nat → Nat → Byte

/-- G30: whether DE is signalled beside ZE for a denormal divided by zero, by the number of the draw and the element. -/
opaque divideDenormalDE : Nat → Nat → Bool

/-- `Cpuid` (R9, G17): the part of a CPUID answer that no rule constrains, {EDX, ECX, EBX, EAX} from the highest. -/
opaque cpuidOpen : Gen → Dword → BitVec 128

/-- `Approx11` (R9, G33): the candidate bits of an approximation; 47 R290's error bound is imposed where it is used. -/
opaque approx11 : ApproxOp → Dword → Dword

/-- G21: whether this implementation's FXSAVE stores the XMM registers and MXCSR while CR4.OSFXSR = 0. -/
opaque fxsaveXmmWhenOff : Bool

/-- G21: whether this implementation's FXRSTOR loads the XMM registers and MXCSR while CR4.OSFXSR = 0. -/
opaque fxrstorXmmWhenOff : Bool

end Config
end Sys2Proof
end

