-- ==== Sys2Proof/Syntax.lean ====
section
/-! DEFINITION. The syntax of the instructions: one constructor of `Instr` per row of spec/opcode_table.json (133 rows,
30_encoding R113 to R118), with the operands the ModR/M byte, the SIB byte, the displacement, the immediate and the
prefixes give it (R100 to R112). Register codes are the 3-bit codes of 10_state R20; which kind of register a code names
is fixed by the opcode and the field (R105). -/

namespace Sys2Proof

/-- The segment registers (10_state R23), named by the override prefixes 26h, 2Eh, 36h, 3Eh, 64h, 65h (30_encoding R106). -/
inductive Seg where
  | es | cs | ss | ds | fs | gs
  deriving DecidableEq, Repr

/-- Address size: which addressing applies (30_encoding R111). -/
inductive AddrSize where
  | a16 | a32
  deriving DecidableEq, Repr

/-- The base part of a 16-bit effective address (30_encoding R110), in the order of its rm codes 000 to 111. -/
inductive Base16 where
  | bxSi | bxDi | bpSi | bpDi | si | di | bp | bx
  deriving DecidableEq, Repr

/-- A memory operand. `ovr` is the last segment-override prefix, if any (30_encoding R106).
`a32`: 32-bit addressing (R108, R109): base register, index register with its scale field (0..3 for times 1, 2, 4, 8),
and displacement, an 8-bit one sign-extended, an absent one 0. The index is never code 100b (WellFormed).
`a16`: 16-bit addressing (R110); no base is the form "disp16 alone". -/
inductive Mem where
  | a32 (ovr : Option Seg) (base : Option Reg) (index : Option (Reg × BitVec 2)) (disp : BitVec 32)
  | a16 (ovr : Option Seg) (base : Option Base16) (disp : BitVec 16)
  deriving DecidableEq, Repr

/-- The r/m operand: a register (mod = 11b) or memory (00_scope R15). -/
inductive RM where
  | reg (r : Reg)
  | mem (m : Mem)
  deriving DecidableEq, Repr

/-- The instructions. `r` is the operand of the ModR/M field reg, `rm` (or `m`) the operand of the field rm; which of the two
is the destination is fixed by the opcode (30_encoding R105): it is `r` but for the forms named `…Store`, MOVNTQ, MOVNTPS
(where `r` is the source) and the shifts by an immediate (where `rm` is the only register). `imm` is the imm8 (R112). -/
inductive Instr where
  /-- PUNPCKLBW mm, mm/m32: `0F 60 /r`, R232. -/
  | punpcklbw (r : Reg) (rm : RM)
  /-- PUNPCKLWD mm, mm/m32: `0F 61 /r`, R233. -/
  | punpcklwd (r : Reg) (rm : RM)
  /-- PUNPCKLDQ mm, mm/m32: `0F 62 /r`, R234. -/
  | punpckldq (r : Reg) (rm : RM)
  /-- PACKSSWB mm, mm/m64: `0F 63 /r`, R221. -/
  | packsswb (r : Reg) (rm : RM)
  /-- PCMPGTB mm, mm/m64: `0F 64 /r`, R184. -/
  | pcmpgtb (r : Reg) (rm : RM)
  /-- PCMPGTW mm, mm/m64: `0F 65 /r`, R185. -/
  | pcmpgtw (r : Reg) (rm : RM)
  /-- PCMPGTD mm, mm/m64: `0F 66 /r`, R186. -/
  | pcmpgtd (r : Reg) (rm : RM)
  /-- PACKUSWB mm, mm/m64: `0F 67 /r`, R222. -/
  | packuswb (r : Reg) (rm : RM)
  /-- PUNPCKHBW mm, mm/m64: `0F 68 /r`, R229. -/
  | punpckhbw (r : Reg) (rm : RM)
  /-- PUNPCKHWD mm, mm/m64: `0F 69 /r`, R230. -/
  | punpckhwd (r : Reg) (rm : RM)
  /-- PUNPCKHDQ mm, mm/m64: `0F 6A /r`, R231. -/
  | punpckhdq (r : Reg) (rm : RM)
  /-- PACKSSDW mm, mm/m64: `0F 6B /r`, R220. -/
  | packssdw (r : Reg) (rm : RM)
  /-- MOVD mm, r/m32: `0F 6E /r`, R140. -/
  | movdLoad (r : Reg) (rm : RM)
  /-- MOVQ mm, mm/m64: `0F 6F /r`, R142. -/
  | movqLoad (r : Reg) (rm : RM)
  /-- PCMPEQB mm, mm/m64: `0F 74 /r`, R181. -/
  | pcmpeqb (r : Reg) (rm : RM)
  /-- PCMPEQW mm, mm/m64: `0F 75 /r`, R182. -/
  | pcmpeqw (r : Reg) (rm : RM)
  /-- PCMPEQD mm, mm/m64: `0F 76 /r`, R183. -/
  | pcmpeqd (r : Reg) (rm : RM)
  /-- MOVD r/m32, mm: `0F 7E /r`, R141. -/
  | movdStore (r : Reg) (rm : RM)
  /-- MOVQ mm/m64, mm: `0F 7F /r`, R143. -/
  | movqStore (r : Reg) (rm : RM)
  /-- PSRLW mm, mm/m64: `0F D1 /r`, R206. -/
  | psrlw (r : Reg) (rm : RM)
  /-- PSRLD mm, mm/m64: `0F D2 /r`, R207. -/
  | psrld (r : Reg) (rm : RM)
  /-- PSRLQ mm, mm/m64: `0F D3 /r`, R208. -/
  | psrlq (r : Reg) (rm : RM)
  /-- PMULLW mm, mm/m64: `0F D5 /r`, R166. -/
  | pmullw (r : Reg) (rm : RM)
  /-- PSUBUSB mm, mm/m64: `0F D8 /r`, R163. -/
  | psubusb (r : Reg) (rm : RM)
  /-- PSUBUSW mm, mm/m64: `0F D9 /r`, R164. -/
  | psubusw (r : Reg) (rm : RM)
  /-- PAND mm, mm/m64: `0F DB /r`, R188. -/
  | pand (r : Reg) (rm : RM)
  /-- PADDUSB mm, mm/m64: `0F DC /r`, R156. -/
  | paddusb (r : Reg) (rm : RM)
  /-- PADDUSW mm, mm/m64: `0F DD /r`, R157. -/
  | paddusw (r : Reg) (rm : RM)
  /-- PANDN mm, mm/m64: `0F DF /r`, R189. -/
  | pandn (r : Reg) (rm : RM)
  /-- PSRAW mm, mm/m64: `0F E1 /r`, R209. -/
  | psraw (r : Reg) (rm : RM)
  /-- PSRAD mm, mm/m64: `0F E2 /r`, R210. -/
  | psrad (r : Reg) (rm : RM)
  /-- PMULHW mm, mm/m64: `0F E5 /r`, R165. -/
  | pmulhw (r : Reg) (rm : RM)
  /-- PSUBSB mm, mm/m64: `0F E8 /r`, R161. -/
  | psubsb (r : Reg) (rm : RM)
  /-- PSUBSW mm, mm/m64: `0F E9 /r`, R162. -/
  | psubsw (r : Reg) (rm : RM)
  /-- POR mm, mm/m64: `0F EB /r`, R190. -/
  | por (r : Reg) (rm : RM)
  /-- PADDSB mm, mm/m64: `0F EC /r`, R154. -/
  | paddsb (r : Reg) (rm : RM)
  /-- PADDSW mm, mm/m64: `0F ED /r`, R155. -/
  | paddsw (r : Reg) (rm : RM)
  /-- PXOR mm, mm/m64: `0F EF /r`, R191. -/
  | pxor (r : Reg) (rm : RM)
  /-- PSLLW mm, mm/m64: `0F F1 /r`, R203. -/
  | psllw (r : Reg) (rm : RM)
  /-- PSLLD mm, mm/m64: `0F F2 /r`, R204. -/
  | pslld (r : Reg) (rm : RM)
  /-- PSLLQ mm, mm/m64: `0F F3 /r`, R205. -/
  | psllq (r : Reg) (rm : RM)
  /-- PMADDWD mm, mm/m64: `0F F5 /r`, R167. -/
  | pmaddwd (r : Reg) (rm : RM)
  /-- PSUBB mm, mm/m64: `0F F8 /r`, R158. -/
  | psubb (r : Reg) (rm : RM)
  /-- PSUBW mm, mm/m64: `0F F9 /r`, R159. -/
  | psubw (r : Reg) (rm : RM)
  /-- PSUBD mm, mm/m64: `0F FA /r`, R160. -/
  | psubd (r : Reg) (rm : RM)
  /-- PADDB mm, mm/m64: `0F FC /r`, R151. -/
  | paddb (r : Reg) (rm : RM)
  /-- PADDW mm, mm/m64: `0F FD /r`, R152. -/
  | paddw (r : Reg) (rm : RM)
  /-- PADDD mm, mm/m64: `0F FE /r`, R153. -/
  | paddd (r : Reg) (rm : RM)
  /-- EMMS none: `0F 77`, R236. -/
  | emms
  /-- PSRLW mm, imm8: `0F 71 /2 ib`, R215. -/
  | psrlwImm (rm : Reg) (imm : Byte)
  /-- PSRAW mm, imm8: `0F 71 /4 ib`, R218. -/
  | psrawImm (rm : Reg) (imm : Byte)
  /-- PSLLW mm, imm8: `0F 71 /6 ib`, R212. -/
  | psllwImm (rm : Reg) (imm : Byte)
  /-- PSRLD mm, imm8: `0F 72 /2 ib`, R216. -/
  | psrldImm (rm : Reg) (imm : Byte)
  /-- PSRAD mm, imm8: `0F 72 /4 ib`, R219. -/
  | psradImm (rm : Reg) (imm : Byte)
  /-- PSLLD mm, imm8: `0F 72 /6 ib`, R213. -/
  | pslldImm (rm : Reg) (imm : Byte)
  /-- PSRLQ mm, imm8: `0F 73 /2 ib`, R217. -/
  | psrlqImm (rm : Reg) (imm : Byte)
  /-- PSLLQ mm, imm8: `0F 73 /6 ib`, R214. -/
  | psllqImm (rm : Reg) (imm : Byte)
  /-- PSHUFW mm, mm/m64, imm8: `0F 70 /r ib`, R252. -/
  | pshufw (r : Reg) (rm : RM) (imm : Byte)
  /-- PINSRW mm, r32/m16, imm8: `0F C4 /r ib`, R244. -/
  | pinsrw (r : Reg) (rm : RM) (imm : Byte)
  /-- PEXTRW r32, mm, imm8: `0F C5 /r ib`, R243. -/
  | pextrw (r : Reg) (rm : Reg) (imm : Byte)
  /-- PMOVMSKB r32, mm: `0F D7 /r`, R249. -/
  | pmovmskb (r : Reg) (rm : Reg)
  /-- PMINUB mm, mm/m64: `0F DA /r`, R247. -/
  | pminub (r : Reg) (rm : RM)
  /-- PMAXUB mm, mm/m64: `0F DE /r`, R245. -/
  | pmaxub (r : Reg) (rm : RM)
  /-- PAVGB mm, mm/m64: `0F E0 /r`, R241. -/
  | pavgb (r : Reg) (rm : RM)
  /-- PAVGW mm, mm/m64: `0F E3 /r`, R242. -/
  | pavgw (r : Reg) (rm : RM)
  /-- PMULHUW mm, mm/m64: `0F E4 /r`, R250. -/
  | pmulhuw (r : Reg) (rm : RM)
  /-- PMINSW mm, mm/m64: `0F EA /r`, R248. -/
  | pminsw (r : Reg) (rm : RM)
  /-- PMAXSW mm, mm/m64: `0F EE /r`, R246. -/
  | pmaxsw (r : Reg) (rm : RM)
  /-- PSADBW mm, mm/m64: `0F F6 /r`, R251. -/
  | psadbw (r : Reg) (rm : RM)
  /-- MOVNTQ m64, mm: `0F E7 /r`, R351. -/
  | movntq (r : Reg) (m : Mem)
  /-- MASKMOVQ mm, mm: `0F F7 /r`, R350. -/
  | maskmovq (r : Reg) (rm : Reg) (ovr : Option Seg) (size : AddrSize)
  /-- MOVUPS xmm, xmm/m128: `0F 10 /r`, R262. -/
  | movupsLoad (r : Reg) (rm : RM)
  /-- MOVUPS xmm/m128, xmm: `0F 11 /r`, R263. -/
  | movupsStore (r : Reg) (rm : RM)
  /-- MOVSS xmm, xmm/m32: `F3 0F 10 /r`, R272. -/
  | movssLoad (r : Reg) (rm : RM)
  /-- MOVSS xmm/m32, xmm: `F3 0F 11 /r`, R273. -/
  | movssStore (r : Reg) (rm : RM)
  /-- MOVLPS xmm, m64: `0F 12 /r`, R268. -/
  | movlpsLoad (r : Reg) (m : Mem)
  /-- MOVHLPS xmm, xmm: `0F 12 /r`, R266. -/
  | movhlps (r : Reg) (rm : Reg)
  /-- MOVLPS m64, xmm: `0F 13 /r`, R269. -/
  | movlpsStore (r : Reg) (m : Mem)
  /-- UNPCKLPS xmm, xmm/m128: `0F 14 /r`, R347. -/
  | unpcklps (r : Reg) (rm : RM)
  /-- UNPCKHPS xmm, xmm/m128: `0F 15 /r`, R346. -/
  | unpckhps (r : Reg) (rm : RM)
  /-- MOVHPS xmm, m64: `0F 16 /r`, R264. -/
  | movhpsLoad (r : Reg) (m : Mem)
  /-- MOVLHPS xmm, xmm: `0F 16 /r`, R267. -/
  | movlhps (r : Reg) (rm : Reg)
  /-- MOVHPS m64, xmm: `0F 17 /r`, R265. -/
  | movhpsStore (r : Reg) (m : Mem)
  /-- PREFETCHNTA m8: `0F 18 /0`, R356. -/
  | prefetchnta (m : Mem)
  /-- PREFETCHT0 m8: `0F 18 /1`, R356. -/
  | prefetcht0 (m : Mem)
  /-- PREFETCHT1 m8: `0F 18 /2`, R356. -/
  | prefetcht1 (m : Mem)
  /-- PREFETCHT2 m8: `0F 18 /3`, R356. -/
  | prefetcht2 (m : Mem)
  /-- MOVAPS xmm, xmm/m128: `0F 28 /r`, R260. -/
  | movapsLoad (r : Reg) (rm : RM)
  /-- MOVAPS xmm/m128, xmm: `0F 29 /r`, R261. -/
  | movapsStore (r : Reg) (rm : RM)
  /-- CVTPI2PS xmm, mm/m64: `0F 2A /r`, R322. -/
  | cvtpi2ps (r : Reg) (rm : RM)
  /-- CVTSI2SS xmm, r/m32: `F3 0F 2A /r`, R325. -/
  | cvtsi2ss (r : Reg) (rm : RM)
  /-- MOVNTPS m128, xmm: `0F 2B /r`, R352. -/
  | movntps (r : Reg) (m : Mem)
  /-- CVTTPS2PI mm, xmm/m64: `0F 2C /r`, R324. -/
  | cvttps2pi (r : Reg) (rm : RM)
  /-- CVTTSS2SI r32, xmm/m32: `F3 0F 2C /r`, R327. -/
  | cvttss2si (r : Reg) (rm : RM)
  /-- CVTPS2PI mm, xmm/m64: `0F 2D /r`, R323. -/
  | cvtps2pi (r : Reg) (rm : RM)
  /-- CVTSS2SI r32, xmm/m32: `F3 0F 2D /r`, R326. -/
  | cvtss2si (r : Reg) (rm : RM)
  /-- UCOMISS xmm, xmm/m32: `0F 2E /r`, R306. -/
  | ucomiss (r : Reg) (rm : RM)
  /-- COMISS xmm, xmm/m32: `0F 2F /r`, R305. -/
  | comiss (r : Reg) (rm : RM)
  /-- MOVMSKPS r32, xmm: `0F 50 /r`, R270. -/
  | movmskps (r : Reg) (rm : Reg)
  /-- SQRTPS xmm, xmm/m128: `0F 51 /r`, R295. -/
  | sqrtps (r : Reg) (rm : RM)
  /-- SQRTSS xmm, xmm/m32: `F3 0F 51 /r`, R296. -/
  | sqrtss (r : Reg) (rm : RM)
  /-- RSQRTPS xmm, xmm/m128: `0F 52 /r`, R309. -/
  | rsqrtps (r : Reg) (rm : RM)
  /-- RSQRTSS xmm, xmm/m32: `F3 0F 52 /r`, R310. -/
  | rsqrtss (r : Reg) (rm : RM)
  /-- RCPPS xmm, xmm/m128: `0F 53 /r`, R307. -/
  | rcpps (r : Reg) (rm : RM)
  /-- RCPSS xmm, xmm/m32: `F3 0F 53 /r`, R308. -/
  | rcpss (r : Reg) (rm : RM)
  /-- ANDPS xmm, xmm/m128: `0F 54 /r`, R330. -/
  | andps (r : Reg) (rm : RM)
  /-- ANDNPS xmm, xmm/m128: `0F 55 /r`, R331. -/
  | andnps (r : Reg) (rm : RM)
  /-- ORPS xmm, xmm/m128: `0F 56 /r`, R332. -/
  | orps (r : Reg) (rm : RM)
  /-- XORPS xmm, xmm/m128: `0F 57 /r`, R333. -/
  | xorps (r : Reg) (rm : RM)
  /-- ADDPS xmm, xmm/m128: `0F 58 /r`, R291. -/
  | addps (r : Reg) (rm : RM)
  /-- ADDSS xmm, xmm/m32: `F3 0F 58 /r`, R292. -/
  | addss (r : Reg) (rm : RM)
  /-- MULPS xmm, xmm/m128: `0F 59 /r`, R293. -/
  | mulps (r : Reg) (rm : RM)
  /-- MULSS xmm, xmm/m32: `F3 0F 59 /r`, R294. -/
  | mulss (r : Reg) (rm : RM)
  /-- SUBPS xmm, xmm/m128: `0F 5C /r`, R297. -/
  | subps (r : Reg) (rm : RM)
  /-- SUBSS xmm, xmm/m32: `F3 0F 5C /r`, R298. -/
  | subss (r : Reg) (rm : RM)
  /-- MINPS xmm, xmm/m128: `0F 5D /r`, R303. -/
  | minps (r : Reg) (rm : RM)
  /-- MINSS xmm, xmm/m32: `F3 0F 5D /r`, R304. -/
  | minss (r : Reg) (rm : RM)
  /-- DIVPS xmm, xmm/m128: `0F 5E /r`, R299. -/
  | divps (r : Reg) (rm : RM)
  /-- DIVSS xmm, xmm/m32: `F3 0F 5E /r`, R311. -/
  | divss (r : Reg) (rm : RM)
  /-- MAXPS xmm, xmm/m128: `0F 5F /r`, R301. -/
  | maxps (r : Reg) (rm : RM)
  /-- MAXSS xmm, xmm/m32: `F3 0F 5F /r`, R302. -/
  | maxss (r : Reg) (rm : RM)
  /-- FXSAVE m512byte: `0F AE /0`, R340. -/
  | fxsave (m : Mem)
  /-- FXRSTOR m512byte: `0F AE /1`, R341. -/
  | fxrstor (m : Mem)
  /-- LDMXCSR m32: `0F AE /2`, R338. -/
  | ldmxcsr (m : Mem)
  /-- STMXCSR m32: `0F AE /3`, R339. -/
  | stmxcsr (m : Mem)
  /-- SFENCE none: `0F AE /7`, R357. -/
  | sfence
  /-- CMPPS xmm, xmm/m128, imm8: `0F C2 /r ib`, R300. -/
  | cmpps (r : Reg) (rm : RM) (imm : Byte)
  /-- CMPSS xmm, xmm/m32, imm8: `F3 0F C2 /r ib`, R312. -/
  | cmpss (r : Reg) (rm : RM) (imm : Byte)
  /-- SHUFPS xmm, xmm/m128, imm8: `0F C6 /r ib`, R345. -/
  | shufps (r : Reg) (rm : RM) (imm : Byte)
  /-- WRMSR implicit ECX, EDX:EAX: `0F 30`, R368. -/
  | wrmsr
  /-- RDTSC implicit EDX:EAX: `0F 31`, R362. -/
  | rdtsc
  /-- RDMSR implicit ECX, EDX:EAX: `0F 32`, R367. -/
  | rdmsr
  /-- CPUID implicit EAX, EBX, ECX, EDX: `0F A2`, R366. -/
  | cpuid
  deriving DecidableEq, Repr

end Sys2Proof
end

