-- ==== Sys2Proof/WellFormed.lean ====
section
/-! DEFINITION. Which terms of the syntax are instructions the encoding can write (30_encoding R103, R109): the one
condition the types do not already carry is that code 100b (ESP) is no index register. Lean decides it. -/

namespace Sys2Proof

/-- A memory operand is well formed: SIB.index = 100b means "no index" (30_encoding R103), so 100b is no index (R109
"ESP cannot be an index"). -/
def Mem.wf : Mem → Bool
  | .a32 _ _ (some (i, _)) _ => i != 4#3
  | .a32 _ _ none _ => true
  | .a16 _ _ _ => true

/-- A register operand is well formed; a memory operand as `Mem.wf` says. -/
def RM.wf : RM → Bool
  | .reg _ => true
  | .mem m => m.wf

/-- An instruction is well formed when its memory operand, if it has one, is. -/
def Instr.wf : Instr → Bool
  | .punpcklbw _ rm => rm.wf
  | .punpcklwd _ rm => rm.wf
  | .punpckldq _ rm => rm.wf
  | .packsswb _ rm => rm.wf
  | .pcmpgtb _ rm => rm.wf
  | .pcmpgtw _ rm => rm.wf
  | .pcmpgtd _ rm => rm.wf
  | .packuswb _ rm => rm.wf
  | .punpckhbw _ rm => rm.wf
  | .punpckhwd _ rm => rm.wf
  | .punpckhdq _ rm => rm.wf
  | .packssdw _ rm => rm.wf
  | .movdLoad _ rm => rm.wf
  | .movqLoad _ rm => rm.wf
  | .pcmpeqb _ rm => rm.wf
  | .pcmpeqw _ rm => rm.wf
  | .pcmpeqd _ rm => rm.wf
  | .movdStore _ rm => rm.wf
  | .movqStore _ rm => rm.wf
  | .psrlw _ rm => rm.wf
  | .psrld _ rm => rm.wf
  | .psrlq _ rm => rm.wf
  | .pmullw _ rm => rm.wf
  | .psubusb _ rm => rm.wf
  | .psubusw _ rm => rm.wf
  | .pand _ rm => rm.wf
  | .paddusb _ rm => rm.wf
  | .paddusw _ rm => rm.wf
  | .pandn _ rm => rm.wf
  | .psraw _ rm => rm.wf
  | .psrad _ rm => rm.wf
  | .pmulhw _ rm => rm.wf
  | .psubsb _ rm => rm.wf
  | .psubsw _ rm => rm.wf
  | .por _ rm => rm.wf
  | .paddsb _ rm => rm.wf
  | .paddsw _ rm => rm.wf
  | .pxor _ rm => rm.wf
  | .psllw _ rm => rm.wf
  | .pslld _ rm => rm.wf
  | .psllq _ rm => rm.wf
  | .pmaddwd _ rm => rm.wf
  | .psubb _ rm => rm.wf
  | .psubw _ rm => rm.wf
  | .psubd _ rm => rm.wf
  | .paddb _ rm => rm.wf
  | .paddw _ rm => rm.wf
  | .paddd _ rm => rm.wf
  | .emms => true
  | .psrlwImm _ _ => true
  | .psrawImm _ _ => true
  | .psllwImm _ _ => true
  | .psrldImm _ _ => true
  | .psradImm _ _ => true
  | .pslldImm _ _ => true
  | .psrlqImm _ _ => true
  | .psllqImm _ _ => true
  | .pshufw _ rm _ => rm.wf
  | .pinsrw _ rm _ => rm.wf
  | .pextrw _ _ _ => true
  | .pmovmskb _ _ => true
  | .pminub _ rm => rm.wf
  | .pmaxub _ rm => rm.wf
  | .pavgb _ rm => rm.wf
  | .pavgw _ rm => rm.wf
  | .pmulhuw _ rm => rm.wf
  | .pminsw _ rm => rm.wf
  | .pmaxsw _ rm => rm.wf
  | .psadbw _ rm => rm.wf
  | .movntq _ m => m.wf
  | .maskmovq _ _ _ _ => true
  | .movupsLoad _ rm => rm.wf
  | .movupsStore _ rm => rm.wf
  | .movssLoad _ rm => rm.wf
  | .movssStore _ rm => rm.wf
  | .movlpsLoad _ m => m.wf
  | .movhlps _ _ => true
  | .movlpsStore _ m => m.wf
  | .unpcklps _ rm => rm.wf
  | .unpckhps _ rm => rm.wf
  | .movhpsLoad _ m => m.wf
  | .movlhps _ _ => true
  | .movhpsStore _ m => m.wf
  | .prefetchnta m => m.wf
  | .prefetcht0 m => m.wf
  | .prefetcht1 m => m.wf
  | .prefetcht2 m => m.wf
  | .movapsLoad _ rm => rm.wf
  | .movapsStore _ rm => rm.wf
  | .cvtpi2ps _ rm => rm.wf
  | .cvtsi2ss _ rm => rm.wf
  | .movntps _ m => m.wf
  | .cvttps2pi _ rm => rm.wf
  | .cvttss2si _ rm => rm.wf
  | .cvtps2pi _ rm => rm.wf
  | .cvtss2si _ rm => rm.wf
  | .ucomiss _ rm => rm.wf
  | .comiss _ rm => rm.wf
  | .movmskps _ _ => true
  | .sqrtps _ rm => rm.wf
  | .sqrtss _ rm => rm.wf
  | .rsqrtps _ rm => rm.wf
  | .rsqrtss _ rm => rm.wf
  | .rcpps _ rm => rm.wf
  | .rcpss _ rm => rm.wf
  | .andps _ rm => rm.wf
  | .andnps _ rm => rm.wf
  | .orps _ rm => rm.wf
  | .xorps _ rm => rm.wf
  | .addps _ rm => rm.wf
  | .addss _ rm => rm.wf
  | .mulps _ rm => rm.wf
  | .mulss _ rm => rm.wf
  | .subps _ rm => rm.wf
  | .subss _ rm => rm.wf
  | .minps _ rm => rm.wf
  | .minss _ rm => rm.wf
  | .divps _ rm => rm.wf
  | .divss _ rm => rm.wf
  | .maxps _ rm => rm.wf
  | .maxss _ rm => rm.wf
  | .fxsave m => m.wf
  | .fxrstor m => m.wf
  | .ldmxcsr m => m.wf
  | .stmxcsr m => m.wf
  | .sfence => true
  | .cmpps _ rm _ => rm.wf
  | .cmpss _ rm _ => rm.wf
  | .shufps _ rm _ => rm.wf
  | .wrmsr => true
  | .rdtsc => true
  | .rdmsr => true
  | .cpuid => true

end Sys2Proof
end

