-- ==== Sys2Proof/Decode.lean ====
section
/-! DEFINITION. From bytes to instructions and back, at the level of machine code (00_scope R7): the byte-order helpers, the
opcode maps of 30_encoding R113 to R118 as a table, the decoder (R104 to R112), total on any bytes and rejecting by name,
and the encoder. -/

namespace Sys2Proof

/-! ## Byte order (20_memory R70) -/

/-- The `n` lowest bytes of a number, lowest first (20_memory R70). -/
def leBytes : Nat → Nat → List Byte
  | 0, _ => []
  | n + 1, v => BitVec.ofNat 8 v :: leBytes n (v / 256)

/-- The number whose bytes, lowest first, are the list (20_memory R70). -/
def leNat : List Byte → Nat
  | [] => 0
  | b :: bs => b.toNat + 256 * leNat bs

/-- The 16-bit little-endian displacement bytes (20_memory R70, last sentence). -/
def dispBytes16 (d : BitVec 16) : List Byte := leBytes 2 d.toNat

/-- The 32-bit little-endian displacement bytes (20_memory R70, last sentence). -/
def dispBytes32 (d : BitVec 32) : List Byte := leBytes 4 d.toNat

/-! ## What the decoder answers -/

/-- Why bytes have no decoding, by name. `outOfBytes`: the bytes given end inside the instruction. `notInstruction`: not in the maps
of R113 to R118 (30_encoding R120). `reservedPrefix`: 66h, F2h or F3h before an opcode that does not take it (R106). -/
inductive DecodeError where
  | outOfBytes
  | notInstruction
  | reservedPrefix
  deriving DecidableEq, Repr

/-- What a byte string stands for: an instruction of the table; one of the reserved hints 0F 18 /4 to /7 with a memory operand, which
execute as no-operations (30_encoding R117) and have no row of the table (log 14); `invalidForm`: a register where memory is required or
the reverse, or an unused opcode extension (R114, R117, R119); `locked`: LOCK before an opcode of this spec (R106). -/
inductive Decoded where
  | instr (i : Instr)
  | reservedHint
  | invalidForm
  | locked
  deriving DecidableEq, Repr

/-! ## Prefixes (30_encoding R106) -/

/-- The prefixes noted before the opcode; of several segment overrides the last counts (R106). -/
structure Prefixes where
  ovr : Option Seg := none
  a67 : Bool := false
  f3 : Bool := false
  p66 : Bool := false
  f2 : Bool := false
  lock : Bool := false
  deriving DecidableEq, Repr

/-- Note one prefix byte; `none` if the byte is no prefix (R106). -/
def notePrefix (p : Prefixes) (b : Byte) : Option Prefixes :=
  if b = 0x26#8 then some { p with ovr := some .es }
  else if b = 0x2E#8 then some { p with ovr := some .cs }
  else if b = 0x36#8 then some { p with ovr := some .ss }
  else if b = 0x3E#8 then some { p with ovr := some .ds }
  else if b = 0x64#8 then some { p with ovr := some .fs }
  else if b = 0x65#8 then some { p with ovr := some .gs }
  else if b = 0x67#8 then some { p with a67 := true }
  else if b = 0xF3#8 then some { p with f3 := true }
  else if b = 0x66#8 then some { p with p66 := true }
  else if b = 0xF2#8 then some { p with f2 := true }
  else if b = 0xF0#8 then some { p with lock := true }
  else none

/-- Read prefixes, in any order, until a byte that is none (R104, R106). -/
def scanPrefixes : List Byte → Prefixes → Prefixes × List Byte
  | [], p => (p, [])
  | b :: bs, p =>
    match notePrefix p b with
    | some p' => scanPrefixes bs p'
    | none => (p, b :: bs)

/-- Which addressing applies: 67h selects the other size (R111). -/
def addrSizeOf (cs : CodeSize) (a67 : Bool) : AddrSize :=
  match cs, a67 with
  | .c32, false => .a32
  | .c32, true => .a16
  | .c16, false => .a16
  | .c16, true => .a32

/-! ## The ModR/M byte, the SIB byte and the displacement (R102, R103, R108 to R110) -/

/-- ModR/M.mod, also SIB.scale: bits 7:6 (R102, R103). -/
def fieldMod (b : Byte) : BitVec 2 := b.extractLsb' 6 2
/-- ModR/M.reg, also SIB.index: bits 5:3 (R102, R103). -/
def fieldReg (b : Byte) : Reg := b.extractLsb' 3 3
/-- ModR/M.rm, also SIB.base: bits 2:0 (R102, R103). -/
def fieldRm (b : Byte) : Reg := b.extractLsb' 0 3
/-- A ModR/M or SIB byte from its three fields (R102, R103). -/
def packFields (hi : BitVec 2) (mid lo : Reg) : Byte := hi ++ mid ++ lo

/-- The displacement of 32-bit addressing by mod: none, a sign-extended byte, or four bytes (R108). -/
def takeDisp32 (mod : BitVec 2) (bs : List Byte) : Except DecodeError (BitVec 32 × List Byte) :=
  if mod = 0#2 then .ok (0#32, bs)
  else if mod = 1#2 then
    match bs with
    | b :: r => .ok (b.signExtend 32, r)
    | _ => .error .outOfBytes
  else
    match bs with
    | b0 :: b1 :: b2 :: b3 :: r => .ok (BitVec.ofNat 32 (leNat [b0, b1, b2, b3]), r)
    | _ => .error .outOfBytes

/-- The displacement of 16-bit addressing by mod: none, a sign-extended byte, or two bytes (R110). -/
def takeDisp16 (mod : BitVec 2) (bs : List Byte) : Except DecodeError (BitVec 16 × List Byte) :=
  if mod = 0#2 then .ok (0#16, bs)
  else if mod = 1#2 then
    match bs with
    | b :: r => .ok (b.signExtend 16, r)
    | _ => .error .outOfBytes
  else
    match bs with
    | b0 :: b1 :: r => .ok (BitVec.ofNat 16 (leNat [b0, b1]), r)
    | _ => .error .outOfBytes

/-- A memory operand of 32-bit addressing, mod not 11b (R108); rm = 100b brings the SIB byte (R103, R109). -/
def parseMem32 (ovr : Option Seg) (mod : BitVec 2) (rm : Reg) (bs : List Byte) : Except DecodeError (Mem × List Byte) :=
  if rm = 4#3 then
    match bs with
    | [] => .error .outOfBytes
    | sib :: bs =>
      let index := if fieldReg sib = 4#3 then none else some (fieldReg sib, fieldMod sib)
      if fieldRm sib = 5#3 ∧ mod = 0#2 then do
        let (d, r) ← takeDisp32 2#2 bs
        pure (.a32 ovr none index d, r)
      else do
        let (d, r) ← takeDisp32 mod bs
        pure (.a32 ovr (some (fieldRm sib)) index d, r)
  else if rm = 5#3 ∧ mod = 0#2 then do
    let (d, r) ← takeDisp32 2#2 bs
    pure (.a32 ovr none none d, r)
  else do
    let (d, r) ← takeDisp32 mod bs
    pure (.a32 ovr (some rm) none d, r)

/-- The base part that an rm code names in 16-bit addressing (R110). -/
def base16Of (rm : Reg) : Base16 :=
  if rm = 0#3 then .bxSi else if rm = 1#3 then .bxDi else if rm = 2#3 then .bpSi else if rm = 3#3 then .bpDi
  else if rm = 4#3 then .si else if rm = 5#3 then .di else if rm = 6#3 then .bp else .bx

/-- A memory operand of 16-bit addressing, mod not 11b (R110). -/
def parseMem16 (ovr : Option Seg) (mod : BitVec 2) (rm : Reg) (bs : List Byte) : Except DecodeError (Mem × List Byte) :=
  if rm = 6#3 ∧ mod = 0#2 then do
    let (d, r) ← takeDisp16 2#2 bs
    pure (.a16 ovr none d, r)
  else do
    let (d, r) ← takeDisp16 mod bs
    pure (.a16 ovr (some (base16Of rm)) d, r)

/-- The r/m operand (R102, R108 to R111). -/
def parseRM (size : AddrSize) (ovr : Option Seg) (mod : BitVec 2) (rm : Reg) (bs : List Byte) :
    Except DecodeError (RM × List Byte) :=
  if mod = 3#2 then .ok (.reg rm, bs)
  else do
    let (m, r) ← match size with
      | .a32 => parseMem32 ovr mod rm bs
      | .a16 => parseMem16 ovr mod rm bs
    pure (.mem m, r)

/-- The one immediate byte, last of the instruction (R112). -/
def takeImm : List Byte → Except DecodeError (Byte × List Byte)
  | b :: r => .ok (b, r)
  | [] => .error .outOfBytes

/-! ## The opcode maps (30_encoding R113 to R119) -/

/-- What follows an opcode, and the instruction it makes. `system`: no ModR/M (R118). `bare`: no ModR/M. `regRm`: /r with any
mod; `regRmImm`: then an imm8. `regReg`, `regRegImm`, `mask`: mod must be 11b; `regMem`: mod must not be 11b; `byMod`: 0F 12 and 0F 16;
`shiftGroup`: 0F 71, 72, 73, with an imm8; `group`: 0F 18 and 0F AE (R117, R119). -/
inductive Form where
  | system (i : Instr)
  | bare (i : Instr)
  | regRm (mk : Reg → RM → Instr)
  | regRmImm (mk : Reg → RM → Byte → Instr)
  | regReg (mk : Reg → Reg → Instr)
  | regRegImm (mk : Reg → Reg → Byte → Instr)
  | regMem (mk : Reg → Mem → Instr)
  | mask (mk : Reg → Reg → Option Seg → AddrSize → Instr)
  | byMod (mkReg : Reg → Reg → Instr) (mkMem : Reg → Mem → Instr)
  | shiftGroup (mk : BitVec 3 → Option (Reg → Byte → Instr))
  | group (mkMem : BitVec 3 → Option (Mem → Decoded)) (mkReg : BitVec 3 → Option Instr)

/-- One row of the opcode maps: whether F3h belongs to the opcode, the byte after 0Fh, and what follows. -/
structure OpRow where
  f3 : Bool
  op : Byte
  form : Form

/-- 30_encoding R113: the integer MMX instructions of the Pentium MMX. -/
def opcodesMmx : List OpRow := [
  (⟨false, 0x60#8, .regRm .punpcklbw⟩ : OpRow),
  (⟨false, 0x61#8, .regRm .punpcklwd⟩ : OpRow),
  (⟨false, 0x62#8, .regRm .punpckldq⟩ : OpRow),
  (⟨false, 0x63#8, .regRm .packsswb⟩ : OpRow),
  (⟨false, 0x64#8, .regRm .pcmpgtb⟩ : OpRow),
  (⟨false, 0x65#8, .regRm .pcmpgtw⟩ : OpRow),
  (⟨false, 0x66#8, .regRm .pcmpgtd⟩ : OpRow),
  (⟨false, 0x67#8, .regRm .packuswb⟩ : OpRow),
  (⟨false, 0x68#8, .regRm .punpckhbw⟩ : OpRow),
  (⟨false, 0x69#8, .regRm .punpckhwd⟩ : OpRow),
  (⟨false, 0x6A#8, .regRm .punpckhdq⟩ : OpRow),
  (⟨false, 0x6B#8, .regRm .packssdw⟩ : OpRow),
  (⟨false, 0x6E#8, .regRm .movdLoad⟩ : OpRow),
  (⟨false, 0x6F#8, .regRm .movqLoad⟩ : OpRow),
  (⟨false, 0x74#8, .regRm .pcmpeqb⟩ : OpRow),
  (⟨false, 0x75#8, .regRm .pcmpeqw⟩ : OpRow),
  (⟨false, 0x76#8, .regRm .pcmpeqd⟩ : OpRow),
  (⟨false, 0x7E#8, .regRm .movdStore⟩ : OpRow),
  (⟨false, 0x7F#8, .regRm .movqStore⟩ : OpRow),
  (⟨false, 0xD1#8, .regRm .psrlw⟩ : OpRow),
  (⟨false, 0xD2#8, .regRm .psrld⟩ : OpRow),
  (⟨false, 0xD3#8, .regRm .psrlq⟩ : OpRow),
  (⟨false, 0xD5#8, .regRm .pmullw⟩ : OpRow),
  (⟨false, 0xD8#8, .regRm .psubusb⟩ : OpRow),
  (⟨false, 0xD9#8, .regRm .psubusw⟩ : OpRow),
  (⟨false, 0xDB#8, .regRm .pand⟩ : OpRow),
  (⟨false, 0xDC#8, .regRm .paddusb⟩ : OpRow),
  (⟨false, 0xDD#8, .regRm .paddusw⟩ : OpRow),
  (⟨false, 0xDF#8, .regRm .pandn⟩ : OpRow),
  (⟨false, 0xE1#8, .regRm .psraw⟩ : OpRow),
  (⟨false, 0xE2#8, .regRm .psrad⟩ : OpRow),
  (⟨false, 0xE5#8, .regRm .pmulhw⟩ : OpRow),
  (⟨false, 0xE8#8, .regRm .psubsb⟩ : OpRow),
  (⟨false, 0xE9#8, .regRm .psubsw⟩ : OpRow),
  (⟨false, 0xEB#8, .regRm .por⟩ : OpRow),
  (⟨false, 0xEC#8, .regRm .paddsb⟩ : OpRow),
  (⟨false, 0xED#8, .regRm .paddsw⟩ : OpRow),
  (⟨false, 0xEF#8, .regRm .pxor⟩ : OpRow),
  (⟨false, 0xF1#8, .regRm .psllw⟩ : OpRow),
  (⟨false, 0xF2#8, .regRm .pslld⟩ : OpRow),
  (⟨false, 0xF3#8, .regRm .psllq⟩ : OpRow),
  (⟨false, 0xF5#8, .regRm .pmaddwd⟩ : OpRow),
  (⟨false, 0xF8#8, .regRm .psubb⟩ : OpRow),
  (⟨false, 0xF9#8, .regRm .psubw⟩ : OpRow),
  (⟨false, 0xFA#8, .regRm .psubd⟩ : OpRow),
  (⟨false, 0xFC#8, .regRm .paddb⟩ : OpRow),
  (⟨false, 0xFD#8, .regRm .paddw⟩ : OpRow),
  (⟨false, 0xFE#8, .regRm .paddd⟩ : OpRow),
  (⟨false, 0x77#8, .bare .emms⟩ : OpRow)]

/-- 30_encoding R114: the shifts by an immediate, opcode extension in ModR/M.reg. -/
def opcodesShiftImm : List OpRow := [
  (⟨false, 0x71#8, .shiftGroup fun n =>
      if n = 2#3 then some .psrlwImm else if n = 4#3 then some .psrawImm else if n = 6#3 then some .psllwImm else none⟩ : OpRow),
  (⟨false, 0x72#8, .shiftGroup fun n =>
      if n = 2#3 then some .psrldImm else if n = 4#3 then some .psradImm else if n = 6#3 then some .pslldImm else none⟩ : OpRow),
  (⟨false, 0x73#8, .shiftGroup fun n =>
      if n = 2#3 then some .psrlqImm else if n = 6#3 then some .psllqImm else none⟩ : OpRow)]

/-- 30_encoding R115: the integer instructions added with the Pentium III. -/
def opcodesMmxIII : List OpRow := [
  (⟨false, 0x70#8, .regRmImm .pshufw⟩ : OpRow),
  (⟨false, 0xC4#8, .regRmImm .pinsrw⟩ : OpRow),
  (⟨false, 0xC5#8, .regRegImm .pextrw⟩ : OpRow),
  (⟨false, 0xD7#8, .regReg .pmovmskb⟩ : OpRow),
  (⟨false, 0xDA#8, .regRm .pminub⟩ : OpRow),
  (⟨false, 0xDE#8, .regRm .pmaxub⟩ : OpRow),
  (⟨false, 0xE0#8, .regRm .pavgb⟩ : OpRow),
  (⟨false, 0xE3#8, .regRm .pavgw⟩ : OpRow),
  (⟨false, 0xE4#8, .regRm .pmulhuw⟩ : OpRow),
  (⟨false, 0xEA#8, .regRm .pminsw⟩ : OpRow),
  (⟨false, 0xEE#8, .regRm .pmaxsw⟩ : OpRow),
  (⟨false, 0xF6#8, .regRm .psadbw⟩ : OpRow),
  (⟨false, 0xE7#8, .regMem .movntq⟩ : OpRow),
  (⟨false, 0xF7#8, .mask .maskmovq⟩ : OpRow)]

/-- 30_encoding R116, first part of the XMM instructions. -/
def opcodesXmmA : List OpRow := [
  (⟨false, 0x10#8, .regRm .movupsLoad⟩ : OpRow),
  (⟨false, 0x11#8, .regRm .movupsStore⟩ : OpRow),
  (⟨true, 0x10#8, .regRm .movssLoad⟩ : OpRow),
  (⟨true, 0x11#8, .regRm .movssStore⟩ : OpRow),
  (⟨false, 0x13#8, .regMem .movlpsStore⟩ : OpRow),
  (⟨false, 0x14#8, .regRm .unpcklps⟩ : OpRow),
  (⟨false, 0x15#8, .regRm .unpckhps⟩ : OpRow),
  (⟨false, 0x17#8, .regMem .movhpsStore⟩ : OpRow),
  (⟨false, 0x28#8, .regRm .movapsLoad⟩ : OpRow),
  (⟨false, 0x29#8, .regRm .movapsStore⟩ : OpRow),
  (⟨false, 0x2A#8, .regRm .cvtpi2ps⟩ : OpRow),
  (⟨true, 0x2A#8, .regRm .cvtsi2ss⟩ : OpRow),
  (⟨false, 0x2B#8, .regMem .movntps⟩ : OpRow),
  (⟨false, 0x2C#8, .regRm .cvttps2pi⟩ : OpRow),
  (⟨true, 0x2C#8, .regRm .cvttss2si⟩ : OpRow),
  (⟨false, 0x2D#8, .regRm .cvtps2pi⟩ : OpRow),
  (⟨true, 0x2D#8, .regRm .cvtss2si⟩ : OpRow),
  (⟨false, 0x2E#8, .regRm .ucomiss⟩ : OpRow),
  (⟨false, 0x2F#8, .regRm .comiss⟩ : OpRow),
  (⟨false, 0x50#8, .regReg .movmskps⟩ : OpRow),
  (⟨false, 0x51#8, .regRm .sqrtps⟩ : OpRow),
  (⟨true, 0x51#8, .regRm .sqrtss⟩ : OpRow)]

/-- 30_encoding R116, second part of the XMM instructions. -/
def opcodesXmmB : List OpRow := [
  (⟨false, 0x52#8, .regRm .rsqrtps⟩ : OpRow),
  (⟨true, 0x52#8, .regRm .rsqrtss⟩ : OpRow),
  (⟨false, 0x53#8, .regRm .rcpps⟩ : OpRow),
  (⟨true, 0x53#8, .regRm .rcpss⟩ : OpRow),
  (⟨false, 0x54#8, .regRm .andps⟩ : OpRow),
  (⟨false, 0x55#8, .regRm .andnps⟩ : OpRow),
  (⟨false, 0x56#8, .regRm .orps⟩ : OpRow),
  (⟨false, 0x57#8, .regRm .xorps⟩ : OpRow),
  (⟨false, 0x58#8, .regRm .addps⟩ : OpRow),
  (⟨true, 0x58#8, .regRm .addss⟩ : OpRow),
  (⟨false, 0x59#8, .regRm .mulps⟩ : OpRow),
  (⟨true, 0x59#8, .regRm .mulss⟩ : OpRow),
  (⟨false, 0x5C#8, .regRm .subps⟩ : OpRow),
  (⟨true, 0x5C#8, .regRm .subss⟩ : OpRow),
  (⟨false, 0x5D#8, .regRm .minps⟩ : OpRow),
  (⟨true, 0x5D#8, .regRm .minss⟩ : OpRow),
  (⟨false, 0x5E#8, .regRm .divps⟩ : OpRow),
  (⟨true, 0x5E#8, .regRm .divss⟩ : OpRow),
  (⟨false, 0x5F#8, .regRm .maxps⟩ : OpRow),
  (⟨true, 0x5F#8, .regRm .maxss⟩ : OpRow),
  (⟨false, 0xC2#8, .regRmImm .cmpps⟩ : OpRow),
  (⟨true, 0xC2#8, .regRmImm .cmpss⟩ : OpRow),
  (⟨false, 0xC6#8, .regRmImm .shufps⟩ : OpRow)]

/-- 30_encoding R116, R117, R119: the opcodes that ModR/M.mod or ModR/M.reg splits. -/
def opcodesGroups : List OpRow := [
  (⟨false, 0x12#8, .byMod .movhlps .movlpsLoad⟩ : OpRow),
  (⟨false, 0x16#8, .byMod .movlhps .movhpsLoad⟩ : OpRow),
  (⟨false, 0x18#8, .group
      (fun n => if n = 0#3 then some (fun m => .instr (.prefetchnta m)) else if n = 1#3 then some (fun m => .instr (.prefetcht0 m))
        else if n = 2#3 then some (fun m => .instr (.prefetcht1 m)) else if n = 3#3 then some (fun m => .instr (.prefetcht2 m))
        else some (fun _ => .reservedHint))
      (fun _ => none)⟩ : OpRow),
  (⟨false, 0xAE#8, .group
      (fun n => if n = 0#3 then some (fun m => .instr (.fxsave m)) else if n = 1#3 then some (fun m => .instr (.fxrstor m))
        else if n = 2#3 then some (fun m => .instr (.ldmxcsr m)) else if n = 3#3 then some (fun m => .instr (.stmxcsr m))
        else none)
      (fun n => if n = 7#3 then some .sfence else none)⟩ : OpRow)]

/-- 30_encoding R118: the system instructions. -/
def opcodesSystem : List OpRow := [
  (⟨false, 0x30#8, .system .wrmsr⟩ : OpRow),
  (⟨false, 0x31#8, .system .rdtsc⟩ : OpRow),
  (⟨false, 0x32#8, .system .rdmsr⟩ : OpRow),
  (⟨false, 0xA2#8, .system .cpuid⟩ : OpRow)]

/-- The opcode maps of 30_encoding R113 to R118. -/
def opcodeTable : List OpRow :=
  opcodesMmx ++ opcodesShiftImm ++ opcodesMmxIII ++ opcodesXmmA ++ opcodesXmmB ++ opcodesGroups ++ opcodesSystem

/-- The first row with that F3h and opcode byte. -/
def findRow (f3 : Bool) (op : Byte) : List OpRow → Option Form
  | [] => none
  | r :: rs => if r.f3 = f3 ∧ r.op = op then some r.form else findRow f3 op rs

/-- The row an opcode names, if it is an opcode of this spec (R104 "lookup (f3, op)"). -/
def findForm (f3 : Bool) (op : Byte) : Option Form := findRow f3 op opcodeTable

/-! ## The decoder (30_encoding R104) -/

/-- Whether an imm8 ends the instruction (R112 to R116). -/
def Form.hasImm : Form → Bool
  | .regRmImm _ => true
  | .regRegImm _ => true
  | .shiftGroup _ => true
  | _ => false

/-- What an opcode makes of its operands: ModR/M.reg, the r/m operand and the imm8, with the override and address size of MASKMOVQ; an
operand of the wrong kind or an unused opcode extension is an invalid form (R114, R117, R119). -/
def Form.build (f : Form) (size : AddrSize) (ovr : Option Seg) (r : Reg) (rm : RM) (imm : Byte) : Decoded :=
  match f, rm with
  | .system i, _ => .instr i
  | .bare i, _ => .instr i
  | .regRm mk, rm => .instr (mk r rm)
  | .regRmImm mk, rm => .instr (mk r rm imm)
  | .regReg mk, .reg q => .instr (mk r q)
  | .regRegImm mk, .reg q => .instr (mk r q imm)
  | .regMem mk, .mem m => .instr (mk r m)
  | .mask mk, .reg q => .instr (mk r q ovr size)
  | .byMod mkReg _, .reg q => .instr (mkReg r q)
  | .byMod _ mkMem, .mem m => .instr (mkMem r m)
  | .shiftGroup mk, .reg q =>
    match mk r with
    | some mk => .instr (mk q imm)
    | none => .invalidForm
  | .group mkMem _, .mem m =>
    match mkMem r with
    | some mk => mk m
    | none => .invalidForm
  | .group _ mkReg, .reg _ =>
    match mkReg r with
    | some i => .instr i
    | none => .invalidForm
  | .regReg _, .mem _ => .invalidForm
  | .regRegImm _, .mem _ => .invalidForm
  | .regMem _, .reg _ => .invalidForm
  | .mask _, .mem _ => .invalidForm
  | .shiftGroup _, .mem _ => .invalidForm

/-- Whether a ModR/M byte follows the opcode. -/
def Form.hasModRm : Form → Bool
  | .system _ => false
  | .bare _ => false
  | _ => true

/-- Read the part of the instruction after the opcode: ModR/M with SIB and displacement, then the imm8, each where the row has one; of an
invalid form too, all its bytes (R104). -/
def parseForm (size : AddrSize) (ovr : Option Seg) (f : Form) (bs : List Byte) : Except DecodeError (Decoded × List Byte) :=
  if f.hasModRm then
    match bs with
    | [] => .error .outOfBytes
    | m :: bs => do
      let (rm, r) ← parseRM size ovr (fieldMod m) (fieldRm m) bs
      let (imm, r) ← if f.hasImm then takeImm r else pure (0#8, r)
      pure (f.build size ovr (fieldReg m) rm imm, r)
  else pure (f.build size ovr 0#3 (.reg 0#3) 0#8, bs)

/-- Whether 66h has no effect before the opcode (R106: before RDMSR, WRMSR, RDTSC, CPUID), where elsewhere it is reserved. -/
def Form.takes66 : Form → Bool
  | .system _ => true
  | _ => false

/-- Decode the bytes at the program counter: what they stand for and the instruction's length, however long (30_encoding R104). What is
no instruction is refused first, then F2h, and a 66h or F3h that the opcode does not take; LOCK is looked at last (R106; log 13). -/
def decode (cs : CodeSize) (bs : List Byte) : Except DecodeError (Decoded × Nat) :=
  let pre := scanPrefixes bs ⟨none, false, false, false, false, false⟩
  match pre.2 with
  | [] => .error .outOfBytes
  | b :: r =>
    if b ≠ 0x0F#8 then .error .notInstruction
    else
      match r with
      | [] => .error .outOfBytes
      | op :: r =>
        match findForm pre.1.f3 op with
        | none => if (findForm false op).isSome then .error .reservedPrefix else .error .notInstruction
        | some f =>
          if pre.1.f2 || (pre.1.p66 && !f.takes66) then .error .reservedPrefix
          else do
            let (d, rest) ← parseForm (addrSizeOf cs pre.1.a67) pre.1.ovr f r
            pure (if pre.1.lock then .locked else d, bs.length - rest.length)

/-- The longest an instruction may be: "length > 15: raise #GP(0)" (30_encoding R104). -/
def maxLength : Nat := 15

/-- The most bytes an instruction has after its prefixes: 0Fh, the opcode, ModR/M, SIB, four displacement bytes, an imm8 (R100). -/
def maxAfterPrefixes : Nat := 9

/-- How many prefix bytes a string begins with, given byte by byte: at most `n` (R104). -/
def prefixRun (byteAt : Nat → Byte) : Nat → Nat → Nat
  | 0, _ => 0
  | n + 1, k => if (notePrefix {} (byteAt k)).isSome then prefixRun byteAt n (k + 1) + 1 else 0

/-- The bytes of a word numbered as spec/opcode_table.json numbers its bits (bit 0 the lowest of the first byte), zero above
`nbits`, as many bytes as the longest instruction has. -/
def tableBytes (nbits w : Nat) : List Byte := leBytes maxLength (w % 2 ^ nbits)

/-- The instruction the decoder reads from a word of spec/opcode_table.json, in 32-bit code (00_scope R9 default). -/
def decodeTableWord (nbits w : Nat) : Option Instr :=
  match decode .c32 (tableBytes nbits w) with
  | .ok (.instr i, _) => some i
  | _ => none

/-! ## The encoder (30_encoding R100 to R118): a byte string per well-formed instruction and form of its memory operand -/

/-- The segment-override prefix byte (R106). -/
def segPrefix : Option Seg → List Byte
  | none => []
  | some .es => [0x26#8]
  | some .cs => [0x2E#8]
  | some .ss => [0x36#8]
  | some .ds => [0x3E#8]
  | some .fs => [0x64#8]
  | some .gs => [0x65#8]

/-- The address-size prefix, where the operand's addressing is not the code segment's (R106, R111). -/
def sizePrefix (cs : CodeSize) (size : AddrSize) : List Byte := if addrSizeOf cs false = size then [] else [0x67#8]

/-- The prefixes a memory operand needs. -/
def memPrefix (cs : CodeSize) : Mem → List Byte
  | .a32 ovr _ _ _ => segPrefix ovr ++ sizePrefix cs .a32
  | .a16 ovr _ _ => segPrefix ovr ++ sizePrefix cs .a16

/-- The rm code of a 16-bit base part (R110). -/
def base16Code : Base16 → Reg
  | .bxSi => 0#3
  | .bxDi => 1#3
  | .bpSi => 2#3
  | .bpDi => 3#3
  | .si => 4#3
  | .di => 5#3
  | .bp => 6#3
  | .bx => 7#3

/-- How a displacement is written, where it can be: not at all (it is 0), as a sign-extended byte, or in full (R108, R110). -/
inductive DispForm where
  | absent
  | byte
  | full
  deriving DecidableEq, Repr

/-- A choice among the encodings of one memory operand: how the displacement is written, and whether a SIB byte is there that the
operand does not need (R108 to R110). -/
structure MemForm where
  disp : DispForm
  sib : Bool
  deriving DecidableEq, Repr

/-- The canonical choice: every displacement in full, no SIB byte that is not needed. -/
def canonicalForm : MemForm := ⟨.full, false⟩

/-- mod and the displacement bytes in 32-bit addressing with a base register: the form asked for where the displacement admits it, else
in full. `bare`: the base has a form without displacement (R108, R109). -/
def encodeDisp32 (form : DispForm) (bare : Bool) (d : BitVec 32) : BitVec 2 × List Byte :=
  match form with
  | .absent => if bare && d == 0#32 then (0#2, []) else (2#2, dispBytes32 d)
  | .byte => if (d.setWidth 8).signExtend 32 == d then (1#2, [d.setWidth 8]) else (2#2, dispBytes32 d)
  | .full => (2#2, dispBytes32 d)

/-- mod and the displacement bytes in 16-bit addressing with a base part, as `encodeDisp32` (R110). -/
def encodeDisp16 (form : DispForm) (bare : Bool) (d : BitVec 16) : BitVec 2 × List Byte :=
  match form with
  | .absent => if bare && d == 0#16 then (0#2, []) else (2#2, dispBytes16 d)
  | .byte => if (d.setWidth 8).signExtend 16 == d then (1#2, [d.setWidth 8]) else (2#2, dispBytes16 d)
  | .full => (2#2, dispBytes16 d)

/-- mod, rm, and the SIB and displacement bytes of a memory operand in a form (R108 to R110). EBP, and BP alone, have no form without
displacement; ESP as a base needs a SIB byte. -/
def encodeMem (form : MemForm) : Mem → BitVec 2 × Reg × List Byte
  | .a32 _ none none d =>
    if form.sib then (0#2, 4#3, packFields 0#2 4#3 5#3 :: dispBytes32 d) else (0#2, 5#3, dispBytes32 d)
  | .a32 _ none (some (i, sc)) d => (0#2, 4#3, packFields sc i 5#3 :: dispBytes32 d)
  | .a32 _ (some b) none d =>
    let p := encodeDisp32 form.disp (b != 5#3) d
    if form.sib || b == 4#3 then (p.1, 4#3, packFields 0#2 4#3 b :: p.2) else (p.1, b, p.2)
  | .a32 _ (some b) (some (i, sc)) d =>
    let p := encodeDisp32 form.disp (b != 5#3) d
    (p.1, 4#3, packFields sc i b :: p.2)
  | .a16 _ none d => (0#2, 6#3, dispBytes16 d)
  | .a16 _ (some b) d =>
    let p := encodeDisp16 form.disp (b != .bp) d
    (p.1, base16Code b, p.2)

/-- An instruction with both operands in registers: 0Fh, opcode, ModR/M with mod = 11b, immediate (R100). -/
def encodeReg (op : Byte) (r rm : Reg) (imm : List Byte) : List Byte := 0x0F#8 :: op :: packFields 3#2 r rm :: imm

/-- An instruction with an r/m operand, in the canonical order [segment] [67h] [F3h] 0Fh op (R100, R106). -/
def encodeRm (form : MemForm) (cs : CodeSize) (f3 : Bool) (op : Byte) (r : Reg) (rm : RM) (imm : List Byte) : List Byte :=
  match rm with
  | .reg q => (if f3 then [0xF3#8] else []) ++ encodeReg op r q imm
  | .mem m =>
    memPrefix cs m ++ (if f3 then [0xF3#8] else []) ++
      0x0F#8 :: op :: packFields (encodeMem form m).1 r (encodeMem form m).2.1 :: ((encodeMem form m).2.2 ++ imm)

/-- The bytes of a well-formed instruction, its memory operand in a form, from the encoding tables R113 to R118. -/
def encodeAs (form : MemForm) (cs : CodeSize) : Instr → List Byte
  | .punpcklbw r rm => encodeRm form cs false 0x60#8 r rm []
  | .punpcklwd r rm => encodeRm form cs false 0x61#8 r rm []
  | .punpckldq r rm => encodeRm form cs false 0x62#8 r rm []
  | .packsswb r rm => encodeRm form cs false 0x63#8 r rm []
  | .pcmpgtb r rm => encodeRm form cs false 0x64#8 r rm []
  | .pcmpgtw r rm => encodeRm form cs false 0x65#8 r rm []
  | .pcmpgtd r rm => encodeRm form cs false 0x66#8 r rm []
  | .packuswb r rm => encodeRm form cs false 0x67#8 r rm []
  | .punpckhbw r rm => encodeRm form cs false 0x68#8 r rm []
  | .punpckhwd r rm => encodeRm form cs false 0x69#8 r rm []
  | .punpckhdq r rm => encodeRm form cs false 0x6A#8 r rm []
  | .packssdw r rm => encodeRm form cs false 0x6B#8 r rm []
  | .movdLoad r rm => encodeRm form cs false 0x6E#8 r rm []
  | .movqLoad r rm => encodeRm form cs false 0x6F#8 r rm []
  | .pcmpeqb r rm => encodeRm form cs false 0x74#8 r rm []
  | .pcmpeqw r rm => encodeRm form cs false 0x75#8 r rm []
  | .pcmpeqd r rm => encodeRm form cs false 0x76#8 r rm []
  | .movdStore r rm => encodeRm form cs false 0x7E#8 r rm []
  | .movqStore r rm => encodeRm form cs false 0x7F#8 r rm []
  | .psrlw r rm => encodeRm form cs false 0xD1#8 r rm []
  | .psrld r rm => encodeRm form cs false 0xD2#8 r rm []
  | .psrlq r rm => encodeRm form cs false 0xD3#8 r rm []
  | .pmullw r rm => encodeRm form cs false 0xD5#8 r rm []
  | .psubusb r rm => encodeRm form cs false 0xD8#8 r rm []
  | .psubusw r rm => encodeRm form cs false 0xD9#8 r rm []
  | .pand r rm => encodeRm form cs false 0xDB#8 r rm []
  | .paddusb r rm => encodeRm form cs false 0xDC#8 r rm []
  | .paddusw r rm => encodeRm form cs false 0xDD#8 r rm []
  | .pandn r rm => encodeRm form cs false 0xDF#8 r rm []
  | .psraw r rm => encodeRm form cs false 0xE1#8 r rm []
  | .psrad r rm => encodeRm form cs false 0xE2#8 r rm []
  | .pmulhw r rm => encodeRm form cs false 0xE5#8 r rm []
  | .psubsb r rm => encodeRm form cs false 0xE8#8 r rm []
  | .psubsw r rm => encodeRm form cs false 0xE9#8 r rm []
  | .por r rm => encodeRm form cs false 0xEB#8 r rm []
  | .paddsb r rm => encodeRm form cs false 0xEC#8 r rm []
  | .paddsw r rm => encodeRm form cs false 0xED#8 r rm []
  | .pxor r rm => encodeRm form cs false 0xEF#8 r rm []
  | .psllw r rm => encodeRm form cs false 0xF1#8 r rm []
  | .pslld r rm => encodeRm form cs false 0xF2#8 r rm []
  | .psllq r rm => encodeRm form cs false 0xF3#8 r rm []
  | .pmaddwd r rm => encodeRm form cs false 0xF5#8 r rm []
  | .psubb r rm => encodeRm form cs false 0xF8#8 r rm []
  | .psubw r rm => encodeRm form cs false 0xF9#8 r rm []
  | .psubd r rm => encodeRm form cs false 0xFA#8 r rm []
  | .paddb r rm => encodeRm form cs false 0xFC#8 r rm []
  | .paddw r rm => encodeRm form cs false 0xFD#8 r rm []
  | .paddd r rm => encodeRm form cs false 0xFE#8 r rm []
  | .emms => [0x0F#8, 0x77#8]
  | .psrlwImm rm imm => encodeReg 0x71#8 2#3 rm [imm]
  | .psrawImm rm imm => encodeReg 0x71#8 4#3 rm [imm]
  | .psllwImm rm imm => encodeReg 0x71#8 6#3 rm [imm]
  | .psrldImm rm imm => encodeReg 0x72#8 2#3 rm [imm]
  | .psradImm rm imm => encodeReg 0x72#8 4#3 rm [imm]
  | .pslldImm rm imm => encodeReg 0x72#8 6#3 rm [imm]
  | .psrlqImm rm imm => encodeReg 0x73#8 2#3 rm [imm]
  | .psllqImm rm imm => encodeReg 0x73#8 6#3 rm [imm]
  | .pshufw r rm imm => encodeRm form cs false 0x70#8 r rm [imm]
  | .pinsrw r rm imm => encodeRm form cs false 0xC4#8 r rm [imm]
  | .pextrw r rm imm => encodeReg 0xC5#8 r rm [imm]
  | .pmovmskb r rm => encodeReg 0xD7#8 r rm []
  | .pminub r rm => encodeRm form cs false 0xDA#8 r rm []
  | .pmaxub r rm => encodeRm form cs false 0xDE#8 r rm []
  | .pavgb r rm => encodeRm form cs false 0xE0#8 r rm []
  | .pavgw r rm => encodeRm form cs false 0xE3#8 r rm []
  | .pmulhuw r rm => encodeRm form cs false 0xE4#8 r rm []
  | .pminsw r rm => encodeRm form cs false 0xEA#8 r rm []
  | .pmaxsw r rm => encodeRm form cs false 0xEE#8 r rm []
  | .psadbw r rm => encodeRm form cs false 0xF6#8 r rm []
  | .movntq r m => encodeRm form cs false 0xE7#8 r (.mem m) []
  | .maskmovq r rm ovr size => segPrefix ovr ++ sizePrefix cs size ++ encodeReg 0xF7#8 r rm []
  | .movupsLoad r rm => encodeRm form cs false 0x10#8 r rm []
  | .movupsStore r rm => encodeRm form cs false 0x11#8 r rm []
  | .movssLoad r rm => encodeRm form cs true 0x10#8 r rm []
  | .movssStore r rm => encodeRm form cs true 0x11#8 r rm []
  | .movlpsLoad r m => encodeRm form cs false 0x12#8 r (.mem m) []
  | .movhlps r rm => encodeReg 0x12#8 r rm []
  | .movlpsStore r m => encodeRm form cs false 0x13#8 r (.mem m) []
  | .unpcklps r rm => encodeRm form cs false 0x14#8 r rm []
  | .unpckhps r rm => encodeRm form cs false 0x15#8 r rm []
  | .movhpsLoad r m => encodeRm form cs false 0x16#8 r (.mem m) []
  | .movlhps r rm => encodeReg 0x16#8 r rm []
  | .movhpsStore r m => encodeRm form cs false 0x17#8 r (.mem m) []
  | .prefetchnta m => encodeRm form cs false 0x18#8 0#3 (.mem m) []
  | .prefetcht0 m => encodeRm form cs false 0x18#8 1#3 (.mem m) []
  | .prefetcht1 m => encodeRm form cs false 0x18#8 2#3 (.mem m) []
  | .prefetcht2 m => encodeRm form cs false 0x18#8 3#3 (.mem m) []
  | .movapsLoad r rm => encodeRm form cs false 0x28#8 r rm []
  | .movapsStore r rm => encodeRm form cs false 0x29#8 r rm []
  | .cvtpi2ps r rm => encodeRm form cs false 0x2A#8 r rm []
  | .cvtsi2ss r rm => encodeRm form cs true 0x2A#8 r rm []
  | .movntps r m => encodeRm form cs false 0x2B#8 r (.mem m) []
  | .cvttps2pi r rm => encodeRm form cs false 0x2C#8 r rm []
  | .cvttss2si r rm => encodeRm form cs true 0x2C#8 r rm []
  | .cvtps2pi r rm => encodeRm form cs false 0x2D#8 r rm []
  | .cvtss2si r rm => encodeRm form cs true 0x2D#8 r rm []
  | .ucomiss r rm => encodeRm form cs false 0x2E#8 r rm []
  | .comiss r rm => encodeRm form cs false 0x2F#8 r rm []
  | .movmskps r rm => encodeReg 0x50#8 r rm []
  | .sqrtps r rm => encodeRm form cs false 0x51#8 r rm []
  | .sqrtss r rm => encodeRm form cs true 0x51#8 r rm []
  | .rsqrtps r rm => encodeRm form cs false 0x52#8 r rm []
  | .rsqrtss r rm => encodeRm form cs true 0x52#8 r rm []
  | .rcpps r rm => encodeRm form cs false 0x53#8 r rm []
  | .rcpss r rm => encodeRm form cs true 0x53#8 r rm []
  | .andps r rm => encodeRm form cs false 0x54#8 r rm []
  | .andnps r rm => encodeRm form cs false 0x55#8 r rm []
  | .orps r rm => encodeRm form cs false 0x56#8 r rm []
  | .xorps r rm => encodeRm form cs false 0x57#8 r rm []
  | .addps r rm => encodeRm form cs false 0x58#8 r rm []
  | .addss r rm => encodeRm form cs true 0x58#8 r rm []
  | .mulps r rm => encodeRm form cs false 0x59#8 r rm []
  | .mulss r rm => encodeRm form cs true 0x59#8 r rm []
  | .subps r rm => encodeRm form cs false 0x5C#8 r rm []
  | .subss r rm => encodeRm form cs true 0x5C#8 r rm []
  | .minps r rm => encodeRm form cs false 0x5D#8 r rm []
  | .minss r rm => encodeRm form cs true 0x5D#8 r rm []
  | .divps r rm => encodeRm form cs false 0x5E#8 r rm []
  | .divss r rm => encodeRm form cs true 0x5E#8 r rm []
  | .maxps r rm => encodeRm form cs false 0x5F#8 r rm []
  | .maxss r rm => encodeRm form cs true 0x5F#8 r rm []
  | .fxsave m => encodeRm form cs false 0xAE#8 0#3 (.mem m) []
  | .fxrstor m => encodeRm form cs false 0xAE#8 1#3 (.mem m) []
  | .ldmxcsr m => encodeRm form cs false 0xAE#8 2#3 (.mem m) []
  | .stmxcsr m => encodeRm form cs false 0xAE#8 3#3 (.mem m) []
  | .sfence => [0x0F#8, 0xAE#8, 0xF8#8]
  | .cmpps r rm imm => encodeRm form cs false 0xC2#8 r rm [imm]
  | .cmpss r rm imm => encodeRm form cs true 0xC2#8 r rm [imm]
  | .shufps r rm imm => encodeRm form cs false 0xC6#8 r rm [imm]
  | .wrmsr => [0x0F#8, 0x30#8]
  | .rdtsc => [0x0F#8, 0x31#8]
  | .rdmsr => [0x0F#8, 0x32#8]
  | .cpuid => [0x0F#8, 0xA2#8]

/-- The canonical bytes of a well-formed instruction. -/
def encode (cs : CodeSize) (i : Instr) : List Byte := encodeAs canonicalForm cs i

end Sys2Proof
end

