-- ==== Sys2Proof/Machine/State.lean ====
section
/-! DEFINITION. The machine's state as plain data: every piece of state 10_state gives the machine, the parameters of 00_scope R9
that a launch fixes, and the model's own draw counter; then the ways a step can stop, and the states after reset and at launch. -/

namespace Sys2Proof.Machine

/-- A segment register: its selector and the base address its descriptor gives (10_state R23, `SegBase` of 00_scope R9). -/
structure SegReg where
  selector : BitVec 16
  base : BitVec 32
  deriving DecidableEq, Repr

/-- The six segment registers (10_state R23). -/
structure SegRegs where
  es : SegReg
  cs : SegReg
  ss : SegReg
  ds : SegReg
  fs : SegReg
  gs : SegReg
  deriving DecidableEq, Repr

/-- What a range of linear addresses outside `MemAdmit` is: not backed at all, not readable, not writable, or a device
(20_memory R76, R78). -/
inductive RegionKind where
  | absent
  | noRead
  | noWrite
  | device
  deriving DecidableEq, Repr

/-- A range of linear addresses that the launch declares not to be ordinary memory (00_scope R9 `MemAdmit`). -/
structure Region where
  base : Nat
  size : Nat
  kind : RegionKind
  deriving DecidableEq, Repr

/-- The parameters of 00_scope R9, constant during a run: no instruction writes one. -/
structure Platform where
  /-- `Gen` (R9). -/
  gen : Gen
  /-- `CodeSize` (R9; 30_encoding R111). -/
  codeSize : CodeSize
  /-- `TscNumber`, the MSR number of the TSC (R9; 49 R363). -/
  tscNumber : Dword
  /-- The other numbers for which `MsrExists` holds (R9; 10_state R52). -/
  msrs : List Dword
  /-- The processor signature, CPUID(1).EAX (49 R366). -/
  signature : Dword
  /-- CPUID bit FXSR where Gen = PentiumII, which leaves it free (49 R366). -/
  fxsrOnPentiumII : Bool
  /-- Whether a Pentium III has the serial number, so that CPUID(0).EAX = 3 (49 R366). -/
  serialNumber : Bool
  /-- The complement of `MemAdmit`, and the device ranges (R9; 20_memory R76, R78). -/
  regions : List Region
  /-- `CodeBase`: linear address of the program's first byte (R9; 20_memory R92). -/
  codeBase : Addr
  /-- `CodeLen`: the program's length in bytes (R9; 20_memory R92). -/
  codeLen : Nat
  deriving DecidableEq, Repr

/-- Memory: the listed bytes by linear address, strictly rising, none equal to `unlistedByte`; `Memory.wf` says the form. -/
abbrev Memory := List Host.Cell

/-- What an address that is not listed reads as: 00h. The spec gives memory no content after reset (70 R421). DESIGN CHOICE,
unsafe (log 7). -/
def unlistedByte : Byte := 0#8

/-- The state of the machine (10_state). -/
structure State where
  /-- EAX, ECX, EDX, EBX, ESP, EBP, ESI, EDI by code (10_state R20). -/
  gpr : Vector Dword 8
  /-- EIP (10_state R24). -/
  pc : Addr
  /-- EFLAGS (10_state R25). -/
  eflags : Dword
  /-- The segment registers (10_state R23). -/
  segs : SegRegs
  /-- FPR0..FPR7, the coprocessor's physical data registers; RMMXi is bits 63:0 of FPRi (10_state R26, R27). -/
  fpr : Vector Fpr80 8
  /-- CWR, the x87 control word (10_state R26). -/
  cwr : Word
  /-- SWR, the x87 status word; TOS is bits 13:11 (10_state R26). -/
  swr : Word
  /-- TWR, the x87 tag word, two bits per physical register (10_state R26). -/
  twr : Word
  /-- A pending unmasked x87 exception (10_state R55 (b)). -/
  x87Pending : Bool
  /-- xmm0..xmm7 (10_state R40). -/
  xmm : Vector Xword 8
  /-- MXCSR (10_state R42). -/
  mxcsr : Dword
  /-- CR0 (10_state R50). -/
  cr0 : Dword
  /-- CR4 (10_state R50). -/
  cr4 : Dword
  /-- CPL, the low two bits of the CS selector: the invariant `State.inv` ties the two (10_state R51; log 34). -/
  cpl : BitVec 2
  /-- The TSC as the last value read or written, `tsc_last` (10_state R53; 49 R364). -/
  tscLast : Qword
  /-- Linear memory (20_memory R70, R72). -/
  mem : Memory
  /-- The parameters of the launch (00_scope R9). -/
  plat : Platform
  /-- The MODEL's own: how many free values have been drawn; it only selects the next one (log 11). -/
  draws : Nat
  deriving DecidableEq, Repr

/-- The exceptions (60_exceptions R380). A raise is a terminal outcome of the step (R395; 92 D10), so each constructor carries the
FAULTED STATE: the state before the instruction, but for the MXCSR flags that an unmasked SIMD condition has set (R396). All are
safe: the run ends, where the hardware enters a handler the spec does not describe. -/
inductive Fault where
  /-- #UD, invalid opcode, vector 6: what decodes as `invalidForm` or `locked`, the checks R383, R384, R385, and R390 (b). -/
  | ud (s : State)
  /-- #NM, device not available, vector 7: CR0.TS = 1 (R383, R384). -/
  | nm (s : State)
  /-- #GP(0), general protection, vector 13, error code 0: the causes of R386. -/
  | gp (s : State)
  /-- #PF, page fault, vector 14: a byte outside `MemAdmit`, with its linear address, which CR2 records, and the error code with the
  bits present, write and user (20_memory R76; 60_exceptions R380; log 29). -/
  | pf (addr : Addr) (code : Dword) (s : State)
  /-- #MF, x87 floating-point error, vector 16: a pending unmasked x87 exception (R383). -/
  | mf (s : State)
  /-- #XM, SIMD floating-point exception, vector 19 (R390). -/
  | xm (s : State)
  deriving DecidableEq, Repr

/-- What the model claims nothing about, by name. All are safe: the run ends there. -/
inductive Refusal where
  /-- An instruction of the table that has no meaning yet: raised by a refused arm of `exec` alone. -/
  | notModelled (mnemonic : String)
  /-- The bytes are no instruction of this spec (30_encoding R120): raised by the step. -/
  | notInstruction
  /-- A prefix 66h, F2h or F3h the opcode does not take (30_encoding R106): raised by the step. -/
  | reservedPrefix
  /-- CMPPS or CMPSS with imm8 above 7 (47 R289, R300): raised by the two, after the checks of the frame and of the operand (log 26). -/
  | reservedPredicate (imm : Byte)
  /-- A fetch outside [CodeBase, CodeBase + CodeLen) (20_memory R92): raised by the step. -/
  | fetchOutsideCode
  /-- Instruction bytes that would extend past linear address FFFFFFFFh (10_state R24): raised by the step. -/
  | fetchPastTop
  /-- A store into the code bytes (20_memory R92): raised by any storing instruction. -/
  | storeToCode (addr : Addr)
  /-- An access to a device range (20_memory R78): raised by any instruction with a memory operand. -/
  | deviceAccess (addr : Addr)
  /-- WRMSR to an existing MSR other than the TSC (49 R368; 92 D12): raised by WRMSR. -/
  | otherMsrWrite (number : Dword)
  deriving DecidableEq, Repr

/-- The flat segment register: base 0 (00_scope R9 default); selector 0000h PRESUMED (log 5). -/
def flatSegment : SegReg := { selector := 0#16, base := 0#32 }

/-- The parameters as 00_scope R9 defaults them; where it gives no default, as log 4, 8, 9 and 10 say. -/
def defaultPlatform : Platform where
  gen := .pentiumIII
  codeSize := .c32
  tscNumber := 0x10#32
  msrs := []
  signature := 0x00000673#32
  fxsrOnPentiumII := true
  serialNumber := false
  regions := []
  codeBase := 0#32
  codeLen := 0

/-- The machine right after RESET (10_state R60, R61; 70 R421). EDX holds the processor signature (R61). -/
def State.reset : State where
  gpr := #v[0#32, 0#32, defaultPlatform.signature, 0#32, 0#32, 0#32, 0#32, 0#32]
  pc := 0x0000FFF0#32
  eflags := 0x00000002#32
  segs :=
    { es := flatSegment, cs := { selector := 0xF000#16, base := 0xFFFF0000#32 }, ss := flatSegment, ds := flatSegment,
      fs := flatSegment, gs := flatSegment }
  fpr := Vector.replicate 8 0#80
  cwr := 0x0040#16
  swr := 0x0000#16
  twr := 0x5555#16
  x87Pending := false
  xmm := Vector.replicate 8 0#128
  mxcsr := 0x00001F80#32
  cr0 := 0x60000010#32
  cr4 := 0x00000000#32
  cpl := 0#2
  tscLast := 0#64
  mem := []
  plat := defaultPlatform
  draws := 0

/-- A segment register of a flat segment: base 0, the selector as it is (70 R423). -/
def SegReg.flat (r : SegReg) : SegReg := { r with base := 0#32 }

/-- The segment registers of a launch: all flat, the low two bits of the CS selector the given CPL (70 R423; 10_state R51). -/
def SegRegs.launch (g : SegRegs) (cpl : BitVec 2) : SegRegs :=
  { es := g.es.flat, cs := { selector := (g.cs.selector &&& 0xFFFC#16) ||| cpl.setWidth 16, base := 0#32 }, ss := g.ss.flat,
    ds := g.ds.flat, fs := g.fs.flat, gs := g.gs.flat }

/-- The launch state of 70 R423, the precondition of a run (10_state R62): `any` is an ARBITRARY state, from which everything that R423
does not list is taken (general registers, EFLAGS, data registers, memory, `MemAdmit`, the program's length, `tsc_last`); CPL, CR4.TSD
and CodeBase are the parameters of the launch. CR0: protected mode (PE, bit 0), with EM, TS and AM, bits 2, 3 and 18, 0 (log 2). -/
def State.launch (any : State) (cpl : BitVec 2) (tsd : Bool) (codeBase : Addr) : State :=
  { any with
    pc := codeBase
    segs := any.segs.launch cpl
    swr := any.swr &&& 0xC7FF#16
    twr := 0xFFFF#16
    x87Pending := false
    mxcsr := 0x00001F80#32
    cr0 := (any.cr0 &&& 0xFFFBFFF3#32) ||| 0x00000001#32
    cr4 := (any.cr4 &&& 0xFFFFFFFB#32) ||| (if tsd then 0x00000604#32 else 0x00000600#32)
    cpl := cpl
    plat := { any.plat with gen := .pentiumIII, codeSize := .c32, codeBase := codeBase } }

end Sys2Proof.Machine
end

