-- ==== Sys2Proof/Machine/Memory.lean ====
section
/-! DEFINITION. Linear memory (20_memory R70, R72): one byte read and written, the canonical form, and the byte strings every wider
access is made of, so that the byte order is decided here once. -/

namespace Sys2Proof.Machine

/-- One byte of memory (20_memory R72); an address that is not listed reads as `unlistedByte` (log 7). -/
def Memory.read : Memory → Nat → Byte
  | [], _ => unlistedByte
  | c :: m, a => if c.1 = a then c.2 else Memory.read m a

/-- Write one byte, keeping the addresses rising and listing no byte equal to `unlistedByte`. -/
def Memory.write : Memory → Nat → Byte → Memory
  | [], a, b => if b = unlistedByte then [] else [(a, b)]
  | c :: m, a, b =>
    if c.1 < a then c :: Memory.write m a b
    else if c.1 = a then (if b = unlistedByte then m else (a, b) :: m)
    else (if b = unlistedByte then c :: m else (a, b) :: c :: m)

/-- Every listed address is at least `lo`, rising strictly, within the 32-bit space, with a byte other than `unlistedByte`. -/
def Memory.wfFrom : Nat → Memory → Bool
  | _, [] => true
  | lo, c :: m => decide (lo ≤ c.1) && decide (c.1 < 2 ^ 32) && decide (c.2 ≠ unlistedByte) && Memory.wfFrom (c.1 + 1) m

/-- The canonical form: equal memories are equal lists. -/
def Memory.wf (m : Memory) : Bool := Memory.wfFrom 0 m

/-- The `n` bytes from linear address `a` up, lowest first; addresses wrap at 2^32 (20_memory R70, R76). -/
def Memory.readBytes (m : Memory) (a : Addr) : Nat → List Byte
  | 0 => []
  | n + 1 => Memory.read m a.toNat :: Memory.readBytes m (a + 1#32) n

/-- Write bytes from linear address `a` up, lowest first; addresses wrap at 2^32 (20_memory R70, R76). -/
def Memory.writeBytes (m : Memory) (a : Addr) : List Byte → Memory
  | [] => m
  | b :: bs => Memory.writeBytes (Memory.write m a.toNat b) (a + 1#32) bs

/-- `MemRead` of a `w`-bit value, w = 8n, little-endian (20_memory R70). -/
def Memory.readValue (m : Memory) (a : Addr) (w n : Nat) : BitVec w := BitVec.ofNat w (leNat (Memory.readBytes m a n))

/-- The `n` bytes of a value, lowest first (20_memory R70). -/
def valueBytes {w : Nat} (n : Nat) (v : BitVec w) : List Byte := leBytes n v.toNat

end Sys2Proof.Machine
end

