-- ==== Sys2Proof/Machine/Ops.lean ====
section
/-! DEFINITION. The named operations over registers and memory: the accessors of 10_state, raising an exception (60_exceptions R395,
R396), the common checks (R383, R384), the checks and moves of one memory access (20_memory R76), and the fetch window. -/

namespace Sys2Proof.Machine

/-- Why an instruction does not complete: an exception, or a refusal of the model. -/
inductive Stop where
  | fault (f : Fault)
  | refused (r : Refusal)
  deriving DecidableEq, Repr

/-- The effect of an instruction: the state it leaves, or why it stopped. -/
abbrev Effect := Except Stop State

/-- The outcome of an effect, in the host's three ways. -/
def Effect.outcome : Effect → Host.Outcome State Fault Refusal
  | .ok s => .next s
  | .error (.fault f) => .fault f
  | .error (.refused r) => .refused r

/-! ## Raising an exception -/

/-- An exception with its recorded value (60_exceptions R380). -/
inductive Exception where
  | ud | nm | gp | mf | xm
  | pf (addr : Addr) (code : Dword)
  deriving DecidableEq, Repr

/-- The vector number (60_exceptions R380). -/
def Exception.vector : Exception → Nat
  | .ud => 6
  | .nm => 7
  | .gp => 13
  | .pf _ _ => 14
  | .mf => 16
  | .xm => 19

/-- The error code the exception records, where it has one: #GP's is 0, #PF's has the bits present, write and user (60_exceptions
R380). -/
def Exception.errorCode : Exception → Option Dword
  | .gp => some 0#32
  | .pf _ code => some code
  | .ud => none
  | .nm => none
  | .mf => none
  | .xm => none

/-- What the exception records in CR2: #PF, the faulting linear address (60_exceptions R380). -/
def Exception.cr2 : Exception → Option Addr
  | .pf addr _ => some addr
  | .gp => none
  | .ud => none
  | .nm => none
  | .mf => none
  | .xm => none

/-- TAKING AN EXCEPTION: a terminal outcome of the step that carries the faulted state, in which `pc` is the address of the
faulting instruction and every register is as before it (60_exceptions R395, R396; 92 D10). There is no entry and no return in
the spec (R395, R397). -/
def raise {α : Type} (e : Exception) (s : State) : Except Stop α :=
  match e with
  | .ud => .error (.fault (.ud s))
  | .nm => .error (.fault (.nm s))
  | .gp => .error (.fault (.gp s))
  | .pf a code => .error (.fault (.pf a code s))
  | .mf => .error (.fault (.mf s))
  | .xm => .error (.fault (.xm s))

/-- Refuse by name: the model claims nothing. -/
def refuse {α : Type} (r : Refusal) : Except Stop α := .error (.refused r)

/-- Go on only if the condition is false, raising the exception otherwise. -/
def raiseIf (c : Bool) (e : Exception) (s : State) : Except Stop Unit := if c then raise e s else .ok ()

/-! ## Registers -/

/-- `x[i]`, a general register by code (10_state R20). -/
def State.x (s : State) (r : Reg) : Dword := s.gpr[r.toNat]'(r.isLt)

/-- `x[i] <- v` (10_state R20): all 32 bits (R21). -/
def State.setX (s : State) (r : Reg) (v : Dword) : State := { s with gpr := s.gpr.set r.toNat v r.isLt }

/-- EAX (10_state R20). -/
def eax : Reg := 0#3
/-- ECX (10_state R20). -/
def ecx : Reg := 1#3
/-- EDX (10_state R20). -/
def edx : Reg := 2#3
/-- EBX (10_state R20). -/
def ebx : Reg := 3#3
/-- EDI (10_state R20). -/
def edi : Reg := 7#3

/-- The physical coprocessor register FPRi (10_state R26). -/
def State.fp (s : State) (r : Reg) : Fpr80 := s.fpr[r.toNat]'(r.isLt)

/-- `mm[i]`: bits 63:0 of FPRi, whatever TOS is (10_state R27, R32). -/
def State.mm (s : State) (r : Reg) : Qword := (s.fp r).setWidth 64

/-- What FPRi holds after an MMX write: the data in bits 63:0 and ones in bits 79:64 (10_state R31). -/
def mmxImage (v : Qword) : Fpr80 := 0xFFFF#16 ++ v

/-- `mm[i] <- v` (10_state R31). -/
def State.setMm (s : State) (r : Reg) (v : Qword) : State := { s with fpr := s.fpr.set r.toNat (mmxImage v) r.isLt }

/-- `xmm[i]` (10_state R40). -/
def State.xm (s : State) (r : Reg) : Xword := s.xmm[r.toNat]'(r.isLt)

/-- `xmm[i] <- v` (10_state R40). -/
def State.setXm (s : State) (r : Reg) (v : Xword) : State := { s with xmm := s.xmm.set r.toNat v r.isLt }

/-- The status word with SWR.TOS, bits 13:11, cleared (10_state R26, R30). -/
def clearTos (swr : Word) : Word := swr &&& 0xC7FF#16

/-- `MmxEnter()`: TWR <- 0000h, SWR.TOS <- 000b (10_state R30). -/
def State.mmxEnter (s : State) : State := { s with twr := 0x0000#16, swr := clearTos s.swr }

/-- EDX:EAX, EDX the high half (49 R362, R367). -/
def State.setEdxEax (s : State) (v : Qword) : State := (s.setX eax (v.setWidth 32)).setX edx (v.extractLsb' 32 32)

/-! ## Control bits (10_state R50, R51) -/

/-- CR0.EM, bit 2. -/
def State.em (s : State) : Bool := s.cr0.getLsbD 2
/-- CR0.TS, bit 3. -/
def State.ts (s : State) : Bool := s.cr0.getLsbD 3
/-- CR4.TSD, bit 2. -/
def State.tsd (s : State) : Bool := s.cr4.getLsbD 2
/-- CR4.OSFXSR, bit 9. -/
def State.osfxsr (s : State) : Bool := s.cr4.getLsbD 9
/-- CR4.OSXMMEXCPT, bit 10. -/
def State.osxmmexcpt (s : State) : Bool := s.cr4.getLsbD 10

/-! ## The common checks -/

/-- The first generation that has an instruction (60_exceptions R385; 30_encoding R113 to R118): `.base` the 57 integer MMX
instructions and the system instructions, `.three` what came with the Pentium III. -/
inductive Since where
  | base
  | three
  deriving DecidableEq, Repr

/-- Whether an instruction is present on this generation (60_exceptions R385). -/
def present (since : Since) (gen : Gen) : Bool :=
  match since with
  | .base => true
  | .three => gen == .pentiumIII

/-- CPUID bit FXSR: FXSAVE and FXRSTOR exist (49 R366; 60_exceptions R385). -/
def Platform.fxsr (p : Platform) : Bool :=
  match p.gen with
  | .pentiumMMX => false
  | .pentiumII => p.fxsrOnPentiumII
  | .pentiumIII => true

/-- `MsrExists(n)` (00_scope R9): true for the TSC's number and those listed. -/
def Platform.msrExists (p : Platform) (n : Dword) : Bool := n == p.tscNumber || p.msrs.contains n

/-- `MmxCheck()` (60_exceptions R383). -/
def mmxCheck (since : Since) (s : State) : Except Stop Unit := do
  raiseIf (!present since s.plat.gen) .ud s
  raiseIf s.em .ud s
  raiseIf s.ts .nm s
  raiseIf s.x87Pending .mf s

/-- `XmmCheck()` (60_exceptions R384). -/
def xmmCheck (s : State) : Except Stop Unit := do
  raiseIf (!present .three s.plat.gen) .ud s
  raiseIf s.em .ud s
  raiseIf (!s.osfxsr) .ud s
  raiseIf s.ts .nm s

/-- The checks of the three MMX-operand conversions: XmmCheck and then the #MF test (60_exceptions R384; order R393; log 30). -/
def xmmMmxCheck (s : State) : Except Stop Unit := do
  xmmCheck s
  raiseIf s.x87Pending .mf s

/-- The only check of PREFETCHh, SFENCE and the reserved hints: the generation (60_exceptions R384, R385; log 31). -/
def genCheck (since : Since) (s : State) : Except Stop Unit := raiseIf (!present since s.plat.gen) .ud s

/-! ## One memory access (20_memory R75, R76, R78, R92) -/

/-- The kind of an access (20_memory R76). -/
inductive Access where
  | read
  | write
  deriving DecidableEq, Repr

/-- Whether a range of the launch holds an address. -/
def Region.holds (g : Region) (a : Addr) : Bool := decide (g.base ≤ a.toNat) && decide (a.toNat < g.base + g.size)

/-- Whether a range's kind shuts out an access, so that `MemAdmit` is false (20_memory R76). -/
def RegionKind.shuts (k : RegionKind) (acc : Access) : Bool :=
  match k, acc with
  | .absent, _ => true
  | .noRead, .read => true
  | .noWrite, .write => true
  | _, _ => false

/-- `MemAdmit(a, 1, kind)` (00_scope R9; log 24). -/
def memAdmit (p : Platform) (acc : Access) (a : Addr) : Bool := p.regions.all fun g => !(g.holds a && g.kind.shuts acc)

/-- Whether a byte lies in a device range (20_memory R78). -/
def inDevice (p : Platform) (a : Addr) : Bool := p.regions.any fun g => g.holds a && g.kind == .device

/-- Whether a byte lies in [CodeBase, CodeBase + CodeLen) (20_memory R92). -/
def inCode (p : Platform) (a : Addr) : Bool :=
  decide (p.codeBase.toNat ≤ a.toNat) && decide (a.toNat < p.codeBase.toNat + p.codeLen)

/-- The linear addresses of an access of `n` bytes, lowest first, wrapping at 2^32 (20_memory R76; log 27). -/
def addresses (a : Addr) : Nat → List Addr
  | 0 => []
  | n + 1 => a :: addresses (a + 1#32) n

/-- Whether `MemAdmit` shuts a byte out because nothing is there, not because the access is not allowed. -/
def isAbsent (p : Platform) (a : Addr) : Bool := p.regions.any fun g => g.holds a && g.kind == .absent

/-- The error code of #PF: bit 0, present: something is there and the access is not allowed; bit 1, write; bit 2, user: CPL = 3
(60_exceptions R380; the places of the bits: log 29). -/
def pageFaultCode (acc : Access) (s : State) (a : Addr) : Dword :=
  (if isAbsent s.plat a then 0#32 else 1#32) ||| (if acc = .write then 2#32 else 0#32) ||| (if s.cpl = 3#2 then 4#32 else 0#32)

/-- The first byte that `MemAdmit` shuts out raises #PF with its address (20_memory R76). -/
def checkAdmit (acc : Access) (s : State) : List Addr → Except Stop Unit
  | [] => .ok ()
  | a :: as => if memAdmit s.plat acc a then checkAdmit acc s as else raise (.pf a (pageFaultCode acc s a)) s

/-- A byte of a device range is a refusal (20_memory R78). -/
def checkDevice (s : State) : List Addr → Except Stop Unit
  | [] => .ok ()
  | a :: as => if inDevice s.plat a then refuse (.deviceAccess a) else checkDevice s as

/-- A store to a byte of the program is a refusal (20_memory R92). -/
def checkCode (s : State) : List Addr → Except Stop Unit
  | [] => .ok ()
  | a :: as => if inCode s.plat a then refuse (.storeToCode a) else checkCode s as

/-- The checks of the bytes of one access, in the order of 60_exceptions R393: `MemAdmit`, then what the model refuses. -/
def checkBytes (acc : Access) (s : State) (as : List Addr) : Except Stop Unit := do
  checkAdmit acc s as
  checkDevice s as
  match acc with
  | .read => .ok ()
  | .write => checkCode s as

/-- `MemCheck(A, n, kind)` (20_memory R76), with the alignment where R75 requires it. -/
def memCheck (acc : Access) (aligned : Bool) (s : State) (a : Addr) (n : Nat) : Except Stop Unit := do
  raiseIf (aligned && a.extractLsb' 0 4 != 0#4) .gp s
  checkBytes acc s (addresses a n)

/-- A checked load of `n` bytes as a `w`-bit value (20_memory R70, R76). -/
def load (w n : Nat) (aligned : Bool) (s : State) (a : Addr) : Except Stop (BitVec w) := do
  memCheck .read aligned s a n
  pure (s.mem.readValue a w n)

/-- A checked store of the `n` bytes of a value (20_memory R70, R76). -/
def store {w : Nat} (n : Nat) (aligned : Bool) (s : State) (a : Addr) (v : BitVec w) : Effect := do
  memCheck .write aligned s a n
  pure { s with mem := s.mem.writeBytes a (valueBytes n v) }

/-! ## Instruction fetch (10_state R24; 20_memory R92) -/

/-- The linear address of the next instruction: CS base + EIP, which is EIP in the flat launch state (20_memory R74; log 28). -/
def State.fetchAddr (s : State) : Addr := s.segs.cs.base + s.pc

/-- How many bytes the program has left where the state fetches: to the end of [CodeBase, CodeBase + CodeLen), not past FFFFFFFFh; none
outside it (20_memory R92; 10_state R24). DESIGN CHOICE, unsafe: what `MemAdmit` and the device ranges say of a byte is not looked at
when it is fetched; the spec speaks of them for operands only (R76, R78; log 35). -/
def State.programLeft (s : State) : Nat :=
  if inCode s.plat s.fetchAddr then min (s.plat.codeBase.toNat + s.plat.codeLen) (2 ^ 32) - s.fetchAddr.toNat else 0

/-- How many bytes are fetched: all the prefixes there are and what an instruction can have after them, as far as the program goes
(30_encoding R104). -/
def State.fetchCount (s : State) : Nat :=
  min s.programLeft (prefixRun (fun k => s.mem.read (s.fetchAddr.toNat + k)) s.programLeft 0 + maxAfterPrefixes)

/-- The bytes at the program counter that are fetched. -/
def State.fetchBytes (s : State) : List Byte := s.mem.readBytes s.fetchAddr s.fetchCount

/-- An instruction that goes on past the bytes that can be fetched is refused: past FFFFFFFFh (10_state R24), or outside the program
(20_memory R92). -/
def fetchOverrun {α : Type} (s : State) : Except Stop α :=
  if s.fetchAddr.toNat + s.fetchCount = 2 ^ 32 then refuse .fetchPastTop else refuse .fetchOutsideCode

/-- What a byte string without a decoding does: a refusal by name (30_encoding R106, R120). -/
def decodeStop {α : Type} (e : DecodeError) (s : State) : Except Stop α :=
  match e with
  | .outOfBytes => fetchOverrun s
  | .notInstruction => refuse .notInstruction
  | .reservedPrefix => refuse .reservedPrefix

/-- "length > 15: raise #GP(0)", once the whole instruction is decoded, and before any other exception (30_encoding R104; 60_exceptions
R393 step 1; log 12). -/
def lengthCheck (len : Nat) (s : State) : Except Stop Unit := if maxLength < len then raise .gp s else pure ()

/-- A bad form, and LOCK: #UD (30_encoding R106, R119; 60_exceptions R393 step 1). -/
def undefinedOpcode (s : State) : Effect := raise .ud s

/-- A hint: PREFETCHh, SFENCE and the reserved encodings 0F 18 /4 to /7. No architectural state changes and no address raises
anything (48 R356, R357; 20_memory R81, R88; 30_encoding R117; log 14). -/
def hint (s : State) : Effect := do
  genCheck .three s
  pure s

/-- `pc <- trunc_32(pc + length)` (10_state R24). -/
def State.advance (s : State) (len : Nat) : State := { s with pc := s.pc + BitVec.ofNat 32 len }

end Sys2Proof.Machine
end

