-- ==== Sys2Proof/Machine/Operands.lean ====
section
/-! DEFINITION. Every operand form: effective and linear addresses (30_encoding R108 to R111, 20_memory R74), the r/m operand read at
each width of 20_memory R73, the r/m destination written, and the frames that every instruction of a shape runs in
(40_mmx_data_transfer R144; 46_xmm_data_movement R271; 47 R281). -/

namespace Sys2Proof.Machine

/-! ## Addresses -/

/-- The low 16 bits of a general register (10_state R21). -/
def State.x16 (s : State) (r : Reg) : Word := (s.x r).setWidth 16

/-- The base part of a 16-bit effective address (30_encoding R110). -/
def State.base16 (s : State) : Base16 → Word
  | .bxSi => s.x16 3#3 + s.x16 6#3
  | .bxDi => s.x16 3#3 + s.x16 7#3
  | .bpSi => s.x16 5#3 + s.x16 6#3
  | .bpDi => s.x16 5#3 + s.x16 7#3
  | .si => s.x16 6#3
  | .di => s.x16 7#3
  | .bp => s.x16 5#3
  | .bx => s.x16 3#3

/-- The base register's part of a 32-bit effective address (30_encoding R108, R109). -/
def State.basePart (s : State) : Option Reg → Addr
  | none => 0#32
  | some b => s.x b

/-- The scaled index's part of a 32-bit effective address (30_encoding R109). -/
def State.indexPart (s : State) : Option (Reg × BitVec 2) → Addr
  | none => 0#32
  | some (i, sc) => s.x i <<< sc.toNat

/-- The effective address, 32 bits; a 16-bit one is zero-extended (30_encoding R108 to R110). -/
def State.ea (s : State) : Mem → Addr
  | .a32 _ base index disp => s.basePart base + s.indexPart index + disp
  | .a16 _ none disp => disp.setWidth 32
  | .a16 _ (some b) disp => (s.base16 b + disp).setWidth 32

/-- Whether a 16-bit base part uses BP, so that its default segment is SS (30_encoding R110). -/
def baseUsesBp : Base16 → Bool
  | .bpSi => true
  | .bpDi => true
  | .bp => true
  | _ => false

/-- The default segment: SS where the base register is ESP or EBP (BP in 16-bit forms), else DS (20_memory R74; 30_encoding R108 to
R110). -/
def memDefaultSeg : Mem → Seg
  | .a32 _ (some b) _ _ => if b = 4#3 ∨ b = 5#3 then .ss else .ds
  | .a32 _ none _ _ => .ds
  | .a16 _ (some b) _ => if baseUsesBp b then .ss else .ds
  | .a16 _ none _ => .ds

/-- The segment-override prefix of a memory operand (30_encoding R106). -/
def memOverride : Mem → Option Seg
  | .a32 ovr _ _ _ => ovr
  | .a16 ovr _ _ => ovr

/-- The segment of a memory operand: the override if there is one (30_encoding R106; 20_memory R74). -/
def memSeg (m : Mem) : Seg := (memOverride m).getD (memDefaultSeg m)

/-- `SegBase(seg)` (20_memory R74). -/
def State.segBase (s : State) : Seg → Addr
  | .es => s.segs.es.base
  | .cs => s.segs.cs.base
  | .ss => s.segs.ss.base
  | .ds => s.segs.ds.base
  | .fs => s.segs.fs.base
  | .gs => s.segs.gs.base

/-- `M = Lin(seg, EA)`, the linear address of a memory operand (20_memory R74; 00_scope R15). -/
def State.lin (s : State) (m : Mem) : Addr := s.segBase (memSeg m) + s.ea m

/-! ## The r/m operand as a source (20_memory R73) -/

/-- The r/m operand: a register through `f`, or `n` bytes of memory. -/
def rmRead (w n : Nat) (aligned : Bool) (f : Reg → BitVec w) (s : State) : RM → Except Stop (BitVec w)
  | .reg q => .ok (f q)
  | .mem m => load w n aligned s (s.lin m)

/-- mm/m64 (40 R144). -/
def mm64 (s : State) (rm : RM) : Except Stop Qword := rmRead 64 8 false s.mm s rm

/-- mm/m32: the low doubleword of an MMX register, or 4 bytes of memory (44 R232 to R234). -/
def mm32 (s : State) (rm : RM) : Except Stop Dword := rmRead 32 4 false (fun q => (s.mm q).setWidth 32) s rm

/-- r/m32: a general register, or 4 bytes of memory (40 R140; 48 R325). -/
def gp32 (s : State) (rm : RM) : Except Stop Dword := rmRead 32 4 false s.x s rm

/-- r32/m16: the low word of a general register, or 2 bytes of memory (45 R244). -/
def gp16 (s : State) (rm : RM) : Except Stop Word := rmRead 16 2 false s.x16 s rm

/-- xmm/m128 of every instruction but MOVUPS: the address must be a multiple of 16 (20_memory R75). -/
def xmm128 (s : State) (rm : RM) : Except Stop Xword := rmRead 128 16 true s.xm s rm

/-- xmm/m128 of MOVUPS: any address (20_memory R75 (b)). -/
def xmm128u (s : State) (rm : RM) : Except Stop Xword := rmRead 128 16 false s.xm s rm

/-- xmm/m64: the low quadword of an XMM register, or 8 bytes of memory (48 R323, R324). -/
def xmm64 (s : State) (rm : RM) : Except Stop Qword := rmRead 64 8 false (fun q => (s.xm q).setWidth 64) s rm

/-- xmm/m32: element 0 of an XMM register, or 4 bytes of memory (47 R281). -/
def xmm32 (s : State) (rm : RM) : Except Stop Dword := rmRead 32 4 false (fun q => (s.xm q).setWidth 32) s rm

/-! ## The r/m operand as a destination -/

/-- Write the r/m operand: a register through `f`, or the `n` bytes of a value to memory. -/
def rmWrite {w : Nat} (n : Nat) (aligned : Bool) (f : State → Reg → BitVec w → State) (s : State) (rm : RM) (v : BitVec w) :
    Effect :=
  match rm with
  | .reg q => .ok (f s q v)
  | .mem m => store n aligned s (s.lin m) v

/-! ## Frames -/

/-- The MMX frame (40 R144) of the shape `mm[reg] <- f(DEST, SRC)`, the source read by `read`. -/
def mmxBinary {w : Nat} (since : Since) (read : State → RM → Except Stop (BitVec w)) (f : Qword → BitVec w → Qword)
    (s : State) (r : Reg) (rm : RM) : Effect := do
  mmxCheck since s
  let src ← read s rm
  pure (s.setMm r (f (s.mm r) src)).mmxEnter

/-- The MMX frame of the shape `mm[rm] <- f(mm[rm])`: the shifts by an immediate (43 R212 to R219). -/
def mmxUnary (since : Since) (f : Qword → Qword) (s : State) (r : Reg) : Effect := do
  mmxCheck since s
  pure (s.setMm r (f (s.mm r))).mmxEnter

/-- The MMX frame of the shape `x[reg] <- f(mm[rm])` (45 R243, R249). -/
def mmxToGpr (since : Since) (f : Qword → Dword) (s : State) (r q : Reg) : Effect := do
  mmxCheck since s
  pure (s.setX r (f (s.mm q))).mmxEnter

/-- The MMX frame of the shape `r/m <- value` (40 R141, R143; 48 R351). -/
def mmxStore {w : Nat} (since : Since) (n : Nat) (f : State → Reg → BitVec w → State) (s : State) (rm : RM) (v : BitVec w) :
    Effect := do
  mmxCheck since s
  let s ← rmWrite n false f s rm v
  pure s.mmxEnter

/-- The XMM frame (46 R271) of the shape `xmm[reg] <- f(DEST, SRC)`, with no floating-point condition. -/
def xmmBinary {w : Nat} (read : State → RM → Except Stop (BitVec w)) (f : Xword → BitVec w → Xword) (s : State) (r : Reg)
    (rm : RM) : Effect := do
  xmmCheck s
  let src ← read s rm
  pure (s.setXm r (f (s.xm r) src))

/-- The XMM frame of the shape `r/m <- value` (46 R261, R263, R265, R269, R273; 48 R352). -/
def xmmStore {w : Nat} (n : Nat) (aligned : Bool) (f : State → Reg → BitVec w → State) (s : State) (rm : RM)
    (v : BitVec w) : Effect := do
  xmmCheck s
  rmWrite n aligned f s rm v

end Sys2Proof.Machine
end

