-- ==== Sys2Proof/Machine/Packed.lean ====
section
/-! DEFINITION. Packed integer values and the operations on their elements: element access (00_scope R12), saturation (R13), the
element-wise scheme (41 R150), and the functions of files 41 to 45 on whole operands. -/

namespace Sys2Proof.Machine

/-- `elem_w(v, i)`, element 0 the lowest (00_scope R12). -/
def elem (w : Nat) {n : Nat} (v : BitVec n) (i : Nat) : BitVec w := v.extractLsb' (w * i) w

/-- A quadword from its 8 bytes (00_scope R12). -/
def ofBytes (f : Nat → Byte) : Qword := f 7 ++ f 6 ++ f 5 ++ f 4 ++ f 3 ++ f 2 ++ f 1 ++ f 0

/-- A quadword from its 4 words (00_scope R12). -/
def ofWords (f : Nat → Word) : Qword := f 3 ++ f 2 ++ f 1 ++ f 0

/-- A quadword from its 2 doublewords (00_scope R12). -/
def ofDwords (f : Nat → Dword) : Qword := f 1 ++ f 0

/-- The element-wise scheme on bytes (41 R150). -/
def mapBytes (g : Byte → Byte → Byte) (d s : Qword) : Qword := ofBytes fun i => g (elem 8 d i) (elem 8 s i)

/-- The element-wise scheme on words (41 R150). -/
def mapWords (g : Word → Word → Word) (d s : Qword) : Qword := ofWords fun i => g (elem 16 d i) (elem 16 s i)

/-- The element-wise scheme on doublewords (41 R150). -/
def mapDwords (g : Dword → Dword → Dword) (d s : Qword) : Qword := ofDwords fun i => g (elem 32 d i) (elem 32 s i)

/-! ## Saturation (00_scope R13) -/

/-- `sat_s8`, `sat_s16` of an exact integer. -/
def satS (w : Nat) (x : Int) : BitVec w :=
  if x < -(2 ^ (w - 1)) then BitVec.intMin w else if x > 2 ^ (w - 1) - 1 then BitVec.intMax w else BitVec.ofInt w x

/-- `sat_u8`, `sat_u16` of an exact integer. -/
def satU (w : Nat) (x : Int) : BitVec w :=
  if x < 0 then 0#w else if x > 2 ^ w - 1 then BitVec.allOnes w else BitVec.ofInt w x

/-! ## One element -/

/-- Wraparound addition (41 R151 to R153). -/
def addWrap {w : Nat} (a b : BitVec w) : BitVec w := a + b
/-- Addition with signed saturation (41 R154, R155). -/
def addSatS {w : Nat} (a b : BitVec w) : BitVec w := satS w (a.toInt + b.toInt)
/-- Addition with unsigned saturation (41 R156, R157). -/
def addSatU {w : Nat} (a b : BitVec w) : BitVec w := satU w ((a.toNat : Int) + b.toNat)
/-- Wraparound subtraction (41 R158 to R160). -/
def subWrap {w : Nat} (a b : BitVec w) : BitVec w := a - b
/-- Subtraction with signed saturation (41 R161, R162). -/
def subSatS {w : Nat} (a b : BitVec w) : BitVec w := satS w (a.toInt - b.toInt)
/-- Subtraction with unsigned saturation (41 R163, R164). -/
def subSatU {w : Nat} (a b : BitVec w) : BitVec w := satU w ((a.toNat : Int) - b.toNat)
/-- The high half of the signed product of words (41 R165). -/
def mulHighS (a b : Word) : Word := (BitVec.ofInt 32 (a.toInt * b.toInt)).extractLsb' 16 16
/-- The low half of the signed product of words (41 R166). -/
def mulLow (a b : Word) : Word := (BitVec.ofInt 32 (a.toInt * b.toInt)).extractLsb' 0 16
/-- The high half of the unsigned product of words (45 R250). -/
def mulHighU (a b : Word) : Word := (BitVec.ofNat 32 (a.toNat * b.toNat)).extractLsb' 16 16
/-- All ones if the relation holds, else all zeros (42 R180). -/
def mask (w : Nat) (c : Bool) : BitVec w := if c then BitVec.allOnes w else 0#w
/-- Equality (42 R181 to R183). -/
def cmpEq {w : Nat} (a b : BitVec w) : BitVec w := mask w (a == b)
/-- Signed greater than (42 R184 to R186). -/
def cmpGt {w : Nat} (a b : BitVec w) : BitVec w := mask w (decide (a.toInt > b.toInt))
/-- `shl_w` (43 R202). -/
def shl {w : Nat} (e : BitVec w) (c : Nat) : BitVec w := if w ≤ c then 0#w else e <<< c
/-- `shr_w` (43 R202). -/
def shr {w : Nat} (e : BitVec w) (c : Nat) : BitVec w := if w ≤ c then 0#w else e >>> c
/-- `sar_w` (43 R202). -/
def sar {w : Nat} (e : BitVec w) (c : Nat) : BitVec w := e.sshiftRight (min c (w - 1))
/-- The unsigned average, halves rounded up, with a sum one bit wider (45 R241, R242). -/
def average {w : Nat} (a b : BitVec w) : BitVec w := BitVec.ofNat w ((a.toNat + b.toNat + 1) / 2)
/-- The unsigned maximum (45 R245). -/
def maxU {w : Nat} (a b : BitVec w) : BitVec w := if a.toNat > b.toNat then a else b
/-- The signed maximum (45 R246). -/
def maxS {w : Nat} (a b : BitVec w) : BitVec w := if a.toInt > b.toInt then a else b
/-- The unsigned minimum (45 R247). -/
def minU {w : Nat} (a b : BitVec w) : BitVec w := if a.toNat < b.toNat then a else b
/-- The signed minimum (45 R248). -/
def minS {w : Nat} (a b : BitVec w) : BitVec w := if a.toInt < b.toInt then a else b
/-- The absolute difference of unsigned bytes (45 R251). -/
def absDiff (a b : Byte) : Nat := (Int.natAbs ((a.toNat : Int) - b.toNat))

/-! ## Whole operands whose scheme is not element by element -/

/-- PMADDWD's doubleword `i`: the sum of the products of words 2i and 2i + 1 (41 R167). -/
def maddPair (d s : Qword) (i : Nat) : Dword :=
  BitVec.ofInt 32 ((elem 16 d (2 * i)).toInt * (elem 16 s (2 * i)).toInt +
    (elem 16 d (2 * i + 1)).toInt * (elem 16 s (2 * i + 1)).toInt)

/-- PMADDWD (41 R167). -/
def madd (d s : Qword) : Qword := ofDwords (maddPair d s)

/-- One shift count for all words (43 R200). -/
def shiftWords (g : Word → Nat → Word) (c : Nat) (d : Qword) : Qword := ofWords fun i => g (elem 16 d i) c

/-- One shift count for both doublewords (43 R200). -/
def shiftDwords (g : Dword → Nat → Dword) (c : Nat) (d : Qword) : Qword := ofDwords fun i => g (elem 32 d i) c

/-- PACKSSDW: the destination's elements go to the low half (44 R220). -/
def packDwords (d s : Qword) : Qword :=
  ofWords fun i => satS 16 (if i < 2 then elem 32 d i else elem 32 s (i - 2)).toInt

/-- PACKSSWB and PACKUSWB: words, read as signed, narrowed by a saturation (44 R221, R222). -/
def packWords (sat : Int → Byte) (d s : Qword) : Qword :=
  ofBytes fun i => sat (if i < 4 then elem 16 d i else elem 16 s (i - 4)).toInt

/-- The interleave scheme on bytes, from element `base` up (44 R228). -/
def interleaveBytes (base : Nat) {w : Nat} (d : Qword) (s : BitVec w) : Qword :=
  ofBytes fun i => if i % 2 = 0 then elem 8 d (base + i / 2) else elem 8 s (base + i / 2)

/-- The interleave scheme on words (44 R228). -/
def interleaveWords (base : Nat) {w : Nat} (d : Qword) (s : BitVec w) : Qword :=
  ofWords fun i => if i % 2 = 0 then elem 16 d (base + i / 2) else elem 16 s (base + i / 2)

/-- The interleave scheme on doublewords (44 R228). -/
def interleaveDwords (base : Nat) {w : Nat} (d : Qword) (s : BitVec w) : Qword :=
  ofDwords fun i => if i % 2 = 0 then elem 32 d (base + i / 2) else elem 32 s (base + i / 2)

/-- PSADBW: the sum of the absolute differences, in the low word (45 R251). -/
def sumAbsDiff (d s : Qword) : Qword :=
  ((BitVec.ofNat 16 (((List.range 8).map fun i => absDiff (elem 8 d i) (elem 8 s i)).sum)) : Word).setWidth 64

/-- PEXTRW: the word that bits 1:0 of imm8 select, zero-extended (45 R243). -/
def extractWord (imm : Byte) (v : Qword) : Dword := (elem 16 v (imm.extractLsb' 0 2).toNat).setWidth 32

/-- PINSRW: the word that bits 1:0 of imm8 select is replaced (45 R244). -/
def insertWord (imm : Byte) (d : Qword) (v : Word) : Qword :=
  ofWords fun i => if i = (imm.extractLsb' 0 2).toNat then v else elem 16 d i

/-- PMOVMSKB: bit i is the sign bit of byte i, bits 31:8 are 0 (45 R249). -/
def signBits (v : Qword) : Dword :=
  (((elem 8 v 7).extractLsb' 7 1 ++ (elem 8 v 6).extractLsb' 7 1 ++ (elem 8 v 5).extractLsb' 7 1 ++
    (elem 8 v 4).extractLsb' 7 1 ++ (elem 8 v 3).extractLsb' 7 1 ++ (elem 8 v 2).extractLsb' 7 1 ++
    (elem 8 v 1).extractLsb' 7 1 ++ (elem 8 v 0).extractLsb' 7 1) : Byte).setWidth 32

/-- PSHUFW: word i of the result is the source word that bits 2i+1:2i of imm8 select (45 R252). -/
def shuffleWords (imm : Byte) (s : Qword) : Qword := ofWords fun i => elem 16 s (elem 2 imm i).toNat

end Sys2Proof.Machine
end

