-- ==== Sys2Proof/Machine/MmxArith.lean ====
section
/-! DEFINITION. The arithmetic instructions of 41_mmx_arithmetic, in the frame of 40 R144. -/

namespace Sys2Proof.Machine

/-- PADDB: wraparound addition of 8 packed bytes (41 R151). -/
def execPaddb (r : Reg) (rm : RM) (s : State) : Host.Outcome State Fault Refusal :=
  (mmxBinary .base mm64 (mapBytes addWrap) s r rm).outcome

/-- PADDW: wraparound addition of 4 packed words (41 R152). -/
def execPaddw (r : Reg) (rm : RM) (s : State) : Host.Outcome State Fault Refusal :=
  (mmxBinary .base mm64 (mapWords addWrap) s r rm).outcome

/-- PADDD: wraparound addition of 2 packed doublewords (41 R153). -/
def execPaddd (r : Reg) (rm : RM) (s : State) : Host.Outcome State Fault Refusal :=
  (mmxBinary .base mm64 (mapDwords addWrap) s r rm).outcome

/-- PADDSB: addition of 8 signed bytes with signed saturation (41 R154). -/
def execPaddsb (r : Reg) (rm : RM) (s : State) : Host.Outcome State Fault Refusal :=
  (mmxBinary .base mm64 (mapBytes addSatS) s r rm).outcome

/-- PADDSW: addition of 4 signed words with signed saturation (41 R155). -/
def execPaddsw (r : Reg) (rm : RM) (s : State) : Host.Outcome State Fault Refusal :=
  (mmxBinary .base mm64 (mapWords addSatS) s r rm).outcome

/-- PADDUSB: addition of 8 unsigned bytes with unsigned saturation (41 R156). -/
def execPaddusb (r : Reg) (rm : RM) (s : State) : Host.Outcome State Fault Refusal :=
  (mmxBinary .base mm64 (mapBytes addSatU) s r rm).outcome

/-- PADDUSW: addition of 4 unsigned words with unsigned saturation (41 R157). -/
def execPaddusw (r : Reg) (rm : RM) (s : State) : Host.Outcome State Fault Refusal :=
  (mmxBinary .base mm64 (mapWords addSatU) s r rm).outcome

/-- PSUBB: wraparound subtraction DEST - SRC of 8 bytes (41 R158). -/
def execPsubb (r : Reg) (rm : RM) (s : State) : Host.Outcome State Fault Refusal :=
  (mmxBinary .base mm64 (mapBytes subWrap) s r rm).outcome

/-- PSUBW: wraparound subtraction DEST - SRC of 4 words (41 R159). -/
def execPsubw (r : Reg) (rm : RM) (s : State) : Host.Outcome State Fault Refusal :=
  (mmxBinary .base mm64 (mapWords subWrap) s r rm).outcome

/-- PSUBD: wraparound subtraction DEST - SRC of 2 doublewords (41 R160). -/
def execPsubd (r : Reg) (rm : RM) (s : State) : Host.Outcome State Fault Refusal :=
  (mmxBinary .base mm64 (mapDwords subWrap) s r rm).outcome

/-- PSUBSB: subtraction of 8 signed bytes with signed saturation (41 R161). -/
def execPsubsb (r : Reg) (rm : RM) (s : State) : Host.Outcome State Fault Refusal :=
  (mmxBinary .base mm64 (mapBytes subSatS) s r rm).outcome

/-- PSUBSW: subtraction of 4 signed words with signed saturation (41 R162). -/
def execPsubsw (r : Reg) (rm : RM) (s : State) : Host.Outcome State Fault Refusal :=
  (mmxBinary .base mm64 (mapWords subSatS) s r rm).outcome

/-- PSUBUSB: subtraction of 8 unsigned bytes with unsigned saturation (41 R163). -/
def execPsubusb (r : Reg) (rm : RM) (s : State) : Host.Outcome State Fault Refusal :=
  (mmxBinary .base mm64 (mapBytes subSatU) s r rm).outcome

/-- PSUBUSW: subtraction of 4 unsigned words with unsigned saturation (41 R164). -/
def execPsubusw (r : Reg) (rm : RM) (s : State) : Host.Outcome State Fault Refusal :=
  (mmxBinary .base mm64 (mapWords subSatU) s r rm).outcome

/-- PMULHW: the high halves of 4 signed products (41 R165). -/
def execPmulhw (r : Reg) (rm : RM) (s : State) : Host.Outcome State Fault Refusal :=
  (mmxBinary .base mm64 (mapWords mulHighS) s r rm).outcome

/-- PMULLW: the low halves of 4 signed products (41 R166). -/
def execPmullw (r : Reg) (rm : RM) (s : State) : Host.Outcome State Fault Refusal :=
  (mmxBinary .base mm64 (mapWords mulLow) s r rm).outcome

/-- PMADDWD: 4 signed products, adjacent ones added (41 R167). -/
def execPmaddwd (r : Reg) (rm : RM) (s : State) : Host.Outcome State Fault Refusal := (mmxBinary .base mm64 madd s r rm).outcome

end Sys2Proof.Machine
end

