-- ==== Sys2Proof/Machine/MmxExtra.lean ====
section
/-! DEFINITION. The integer instructions the Pentium III added (45_mmx_additional) and the two MMX cacheability stores (48 R350, R351),
in the frame of 40 R144. -/

namespace Sys2Proof.Machine

/-- PAVGB: the rounded averages of 8 pairs of unsigned bytes (45 R241). -/
def execPavgb (r : Reg) (rm : RM) (s : State) : Host.Outcome State Fault Refusal :=
  (mmxBinary .three mm64 (mapBytes average) s r rm).outcome

/-- PAVGW: the rounded averages of 4 pairs of unsigned words (45 R242). -/
def execPavgw (r : Reg) (rm : RM) (s : State) : Host.Outcome State Fault Refusal :=
  (mmxBinary .three mm64 (mapWords average) s r rm).outcome

/-- PEXTRW r32, mm, imm8: a word into a general register, zero-extended (45 R243). -/
def execPextrw (r rm : Reg) (imm : Byte) (s : State) : Host.Outcome State Fault Refusal :=
  (mmxToGpr .three (extractWord imm) s r rm).outcome

/-- PINSRW mm, r32/m16, imm8: one word replaced (45 R244). -/
def execPinsrw (r : Reg) (rm : RM) (imm : Byte) (s : State) : Host.Outcome State Fault Refusal :=
  (mmxBinary .three gp16 (insertWord imm) s r rm).outcome

/-- PMAXUB: the maxima of 8 pairs of unsigned bytes (45 R245). -/
def execPmaxub (r : Reg) (rm : RM) (s : State) : Host.Outcome State Fault Refusal :=
  (mmxBinary .three mm64 (mapBytes maxU) s r rm).outcome

/-- PMAXSW: the maxima of 4 pairs of signed words (45 R246). -/
def execPmaxsw (r : Reg) (rm : RM) (s : State) : Host.Outcome State Fault Refusal :=
  (mmxBinary .three mm64 (mapWords maxS) s r rm).outcome

/-- PMINUB: the minima of 8 pairs of unsigned bytes (45 R247). -/
def execPminub (r : Reg) (rm : RM) (s : State) : Host.Outcome State Fault Refusal :=
  (mmxBinary .three mm64 (mapBytes minU) s r rm).outcome

/-- PMINSW: the minima of 4 pairs of signed words (45 R248). -/
def execPminsw (r : Reg) (rm : RM) (s : State) : Host.Outcome State Fault Refusal :=
  (mmxBinary .three mm64 (mapWords minS) s r rm).outcome

/-- PMOVMSKB r32, mm: the sign bits of 8 bytes (45 R249). -/
def execPmovmskb (r rm : Reg) (s : State) : Host.Outcome State Fault Refusal := (mmxToGpr .three signBits s r rm).outcome

/-- PMULHUW: the high halves of 4 unsigned products (45 R250). -/
def execPmulhuw (r : Reg) (rm : RM) (s : State) : Host.Outcome State Fault Refusal :=
  (mmxBinary .three mm64 (mapWords mulHighU) s r rm).outcome

/-- PSADBW: the sum of 8 absolute differences of unsigned bytes (45 R251). -/
def execPsadbw (r : Reg) (rm : RM) (s : State) : Host.Outcome State Fault Refusal :=
  (mmxBinary .three mm64 sumAbsDiff s r rm).outcome

/-- PSHUFW: words of the source in the order of imm8 (45 R252). -/
def execPshufw (r : Reg) (rm : RM) (imm : Byte) (s : State) : Host.Outcome State Fault Refusal :=
  (mmxBinary .three mm64 (fun _ v => shuffleWords imm v) s r rm).outcome

/-- MOVNTQ m64, mm: a store past the caches; with one agent, a store (48 R351; 20_memory R85). -/
def execMovntq (r : Reg) (m : Mem) (s : State) : Host.Outcome State Fault Refusal :=
  (mmxStore .three 8 State.setMm s (.mem m) (s.mm r)).outcome

/-- The address of byte `i` of MASKMOVQ: base + i, wrapping at 16 bits in 16-bit addressing (48 R350). -/
def State.maskByteAddr (s : State) (ovr : Option Seg) (size : AddrSize) (i : Nat) : Addr :=
  s.segBase (ovr.getD .ds) +
    match size with
    | .a32 => s.x edi + BitVec.ofNat 32 i
    | .a16 => (s.x16 edi + BitVec.ofNat 16 i).setWidth 32

/-- The byte numbers the mask selects: those whose sign bit is 1 (48 R350). -/
def selectedBytes (v : Qword) : List Nat := (List.range 8).filter fun i => (elem 8 v i).getLsbD 7

/-- Store single bytes at their addresses, in order (48 R350). -/
def Memory.writeEach (m : Memory) : List (Addr × Byte) → Memory
  | [] => m
  | (a, b) :: rest => Memory.writeEach (Memory.write m a.toNat b) rest

/-- MASKMOVQ mm, mm: the selected bytes of `mm[reg]` stored at DS:EDI, all checks before any write, the other bytes neither read nor
checked (48 R350; 20_memory R86). -/
def execMaskmovq (r rm : Reg) (ovr : Option Seg) (size : AddrSize) (s : State) : Host.Outcome State Fault Refusal :=
  Effect.outcome do
    mmxCheck .three s
    checkBytes .write s ((selectedBytes (s.mm rm)).map (s.maskByteAddr ovr size))
    pure { s with
      mem := s.mem.writeEach ((selectedBytes (s.mm rm)).map fun i => (s.maskByteAddr ovr size i, elem 8 (s.mm r) i)) }.mmxEnter

end Sys2Proof.Machine
end

