-- ==== Sys2Proof/Machine/MmxLogic.lean ====
section
/-! DEFINITION. The comparison and logical instructions of 42_mmx_compare_logical, in the frame of 40 R144. -/

namespace Sys2Proof.Machine

/-- PCMPEQB: 8 bytes compared for equality (42 R181). -/
def execPcmpeqb (r : Reg) (rm : RM) (s : State) : Host.Outcome State Fault Refusal :=
  (mmxBinary .base mm64 (mapBytes cmpEq) s r rm).outcome

/-- PCMPEQW: 4 words compared for equality (42 R182). -/
def execPcmpeqw (r : Reg) (rm : RM) (s : State) : Host.Outcome State Fault Refusal :=
  (mmxBinary .base mm64 (mapWords cmpEq) s r rm).outcome

/-- PCMPEQD: 2 doublewords compared for equality (42 R183). -/
def execPcmpeqd (r : Reg) (rm : RM) (s : State) : Host.Outcome State Fault Refusal :=
  (mmxBinary .base mm64 (mapDwords cmpEq) s r rm).outcome

/-- PCMPGTB: 8 bytes compared, signed greater than (42 R184). -/
def execPcmpgtb (r : Reg) (rm : RM) (s : State) : Host.Outcome State Fault Refusal :=
  (mmxBinary .base mm64 (mapBytes cmpGt) s r rm).outcome

/-- PCMPGTW: 4 words compared, signed greater than (42 R185). -/
def execPcmpgtw (r : Reg) (rm : RM) (s : State) : Host.Outcome State Fault Refusal :=
  (mmxBinary .base mm64 (mapWords cmpGt) s r rm).outcome

/-- PCMPGTD: 2 doublewords compared, signed greater than (42 R186). -/
def execPcmpgtd (r : Reg) (rm : RM) (s : State) : Host.Outcome State Fault Refusal :=
  (mmxBinary .base mm64 (mapDwords cmpGt) s r rm).outcome

/-- PAND: bitwise AND (42 R188). -/
def execPand (r : Reg) (rm : RM) (s : State) : Host.Outcome State Fault Refusal :=
  (mmxBinary .base mm64 (fun d v => d &&& v) s r rm).outcome

/-- PANDN: the complement of the destination AND the source (42 R189). -/
def execPandn (r : Reg) (rm : RM) (s : State) : Host.Outcome State Fault Refusal :=
  (mmxBinary .base mm64 (fun d v => ~~~d &&& v) s r rm).outcome

/-- POR: bitwise OR (42 R190). -/
def execPor (r : Reg) (rm : RM) (s : State) : Host.Outcome State Fault Refusal :=
  (mmxBinary .base mm64 (fun d v => d ||| v) s r rm).outcome

/-- PXOR: bitwise exclusive OR (42 R191). -/
def execPxor (r : Reg) (rm : RM) (s : State) : Host.Outcome State Fault Refusal :=
  (mmxBinary .base mm64 (fun d v => d ^^^ v) s r rm).outcome

end Sys2Proof.Machine
end

