-- ==== Sys2Proof/Machine/MmxMove.lean ====
section
/-! DEFINITION. The data transfer instructions of 40_mmx_data_transfer, and EMMS (44 R236). -/

namespace Sys2Proof.Machine

/-- MOVD mm, r/m32: bits 31:0 from the source, bits 63:32 zero (40 R140). -/
def execMovdLoad (r : Reg) (rm : RM) (s : State) : Host.Outcome State Fault Refusal :=
  (mmxBinary .base gp32 (fun _ v => v.setWidth 64) s r rm).outcome

/-- MOVD r/m32, mm: the low doubleword moved out (40 R141). -/
def execMovdStore (r : Reg) (rm : RM) (s : State) : Host.Outcome State Fault Refusal :=
  (mmxStore .base 4 State.setX s rm ((s.mm r).setWidth 32)).outcome

/-- MOVQ mm, mm/m64 (40 R142). -/
def execMovqLoad (r : Reg) (rm : RM) (s : State) : Host.Outcome State Fault Refusal :=
  (mmxBinary .base mm64 (fun _ v => v) s r rm).outcome

/-- MOVQ mm/m64, mm (40 R143). -/
def execMovqStore (r : Reg) (rm : RM) (s : State) : Host.Outcome State Fault Refusal :=
  (mmxStore .base 8 State.setMm s rm (s.mm r)).outcome

/-- What EMMS leaves: TWR <- FFFFh, SWR.TOS <- 000b, nothing else (44 R236). -/
def State.emptyMmx (s : State) : State := { s with twr := 0xFFFF#16, swr := clearTos s.swr }

/-- EMMS (44 R236): it does not run the frame of 40 R144. -/
def execEmms (s : State) : Host.Outcome State Fault Refusal :=
  Effect.outcome do
    mmxCheck .base s
    pure s.emptyMmx

end Sys2Proof.Machine
end

