-- ==== Sys2Proof/Machine/MmxPack.lean ====
section
/-! DEFINITION. The pack and unpack instructions of 44_mmx_pack_unpack_emms, in the frame of 40 R144. -/

namespace Sys2Proof.Machine

/-- PACKSSDW: doublewords into words with signed saturation (44 R220). -/
def execPackssdw (r : Reg) (rm : RM) (s : State) : Host.Outcome State Fault Refusal :=
  (mmxBinary .base mm64 packDwords s r rm).outcome

/-- PACKSSWB: words into bytes with signed saturation (44 R221). -/
def execPacksswb (r : Reg) (rm : RM) (s : State) : Host.Outcome State Fault Refusal :=
  (mmxBinary .base mm64 (packWords (satS 8)) s r rm).outcome

/-- PACKUSWB: signed words into bytes with unsigned saturation (44 R222). -/
def execPackuswb (r : Reg) (rm : RM) (s : State) : Host.Outcome State Fault Refusal :=
  (mmxBinary .base mm64 (packWords (satU 8)) s r rm).outcome

/-- PUNPCKHBW: the high 4 bytes of each operand interleaved (44 R229). -/
def execPunpckhbw (r : Reg) (rm : RM) (s : State) : Host.Outcome State Fault Refusal :=
  (mmxBinary .base mm64 (interleaveBytes 4) s r rm).outcome

/-- PUNPCKHWD: the high 2 words of each operand interleaved (44 R230). -/
def execPunpckhwd (r : Reg) (rm : RM) (s : State) : Host.Outcome State Fault Refusal :=
  (mmxBinary .base mm64 (interleaveWords 2) s r rm).outcome

/-- PUNPCKHDQ: the high doublewords combined (44 R231). -/
def execPunpckhdq (r : Reg) (rm : RM) (s : State) : Host.Outcome State Fault Refusal :=
  (mmxBinary .base mm64 (interleaveDwords 1) s r rm).outcome

/-- PUNPCKLBW: the low 4 bytes of each operand interleaved; a memory operand is 4 bytes (44 R232). -/
def execPunpcklbw (r : Reg) (rm : RM) (s : State) : Host.Outcome State Fault Refusal :=
  (mmxBinary .base mm32 (interleaveBytes 0) s r rm).outcome

/-- PUNPCKLWD: the low 2 words of each operand interleaved; a memory operand is 4 bytes (44 R233). -/
def execPunpcklwd (r : Reg) (rm : RM) (s : State) : Host.Outcome State Fault Refusal :=
  (mmxBinary .base mm32 (interleaveWords 0) s r rm).outcome

/-- PUNPCKLDQ: the low doublewords combined; a memory operand is 4 bytes (44 R234). -/
def execPunpckldq (r : Reg) (rm : RM) (s : State) : Host.Outcome State Fault Refusal :=
  (mmxBinary .base mm32 (interleaveDwords 0) s r rm).outcome

end Sys2Proof.Machine
end

