-- ==== Sys2Proof/Machine/MmxShift.lean ====
section
/-! DEFINITION. The shift instructions of 43_mmx_shift: the count a 64-bit operand (R203 to R210) or an imm8 (R212 to R219). -/

namespace Sys2Proof.Machine

/-- PSLLW mm, mm/m64: words left by the whole 64-bit count (43 R203). -/
def execPsllw (r : Reg) (rm : RM) (s : State) : Host.Outcome State Fault Refusal :=
  (mmxBinary .base mm64 (fun d c => shiftWords shl c.toNat d) s r rm).outcome

/-- PSLLD mm, mm/m64: doublewords left by the whole 64-bit count (43 R204). -/
def execPslld (r : Reg) (rm : RM) (s : State) : Host.Outcome State Fault Refusal :=
  (mmxBinary .base mm64 (fun d c => shiftDwords shl c.toNat d) s r rm).outcome

/-- PSLLQ mm, mm/m64: the quadword left by the whole 64-bit count (43 R205). -/
def execPsllq (r : Reg) (rm : RM) (s : State) : Host.Outcome State Fault Refusal :=
  (mmxBinary .base mm64 (fun d c => shl d c.toNat) s r rm).outcome

/-- PSRLW mm, mm/m64: words right by the whole 64-bit count (43 R206). -/
def execPsrlw (r : Reg) (rm : RM) (s : State) : Host.Outcome State Fault Refusal :=
  (mmxBinary .base mm64 (fun d c => shiftWords shr c.toNat d) s r rm).outcome

/-- PSRLD mm, mm/m64: doublewords right by the whole 64-bit count (43 R207). -/
def execPsrld (r : Reg) (rm : RM) (s : State) : Host.Outcome State Fault Refusal :=
  (mmxBinary .base mm64 (fun d c => shiftDwords shr c.toNat d) s r rm).outcome

/-- PSRLQ mm, mm/m64: the quadword right by the whole 64-bit count (43 R208). -/
def execPsrlq (r : Reg) (rm : RM) (s : State) : Host.Outcome State Fault Refusal :=
  (mmxBinary .base mm64 (fun d c => shr d c.toNat) s r rm).outcome

/-- PSRAW mm, mm/m64: words right, arithmetically by the whole 64-bit count (43 R209). -/
def execPsraw (r : Reg) (rm : RM) (s : State) : Host.Outcome State Fault Refusal :=
  (mmxBinary .base mm64 (fun d c => shiftWords sar c.toNat d) s r rm).outcome

/-- PSRAD mm, mm/m64: doublewords right, arithmetically by the whole 64-bit count (43 R210). -/
def execPsrad (r : Reg) (rm : RM) (s : State) : Host.Outcome State Fault Refusal :=
  (mmxBinary .base mm64 (fun d c => shiftDwords sar c.toNat d) s r rm).outcome

/-- PSLLW mm, imm8: words left by the immediate (43 R212). -/
def execPsllwImm (rm : Reg) (imm : Byte) (s : State) : Host.Outcome State Fault Refusal :=
  (mmxUnary .base (shiftWords shl imm.toNat) s rm).outcome

/-- PSLLD mm, imm8: doublewords left by the immediate (43 R213). -/
def execPslldImm (rm : Reg) (imm : Byte) (s : State) : Host.Outcome State Fault Refusal :=
  (mmxUnary .base (shiftDwords shl imm.toNat) s rm).outcome

/-- PSLLQ mm, imm8: the quadword left by the immediate (43 R214). -/
def execPsllqImm (rm : Reg) (imm : Byte) (s : State) : Host.Outcome State Fault Refusal :=
  (mmxUnary .base (fun d => shl d imm.toNat) s rm).outcome

/-- PSRLW mm, imm8: words right by the immediate (43 R215). -/
def execPsrlwImm (rm : Reg) (imm : Byte) (s : State) : Host.Outcome State Fault Refusal :=
  (mmxUnary .base (shiftWords shr imm.toNat) s rm).outcome

/-- PSRLD mm, imm8: doublewords right by the immediate (43 R216). -/
def execPsrldImm (rm : Reg) (imm : Byte) (s : State) : Host.Outcome State Fault Refusal :=
  (mmxUnary .base (shiftDwords shr imm.toNat) s rm).outcome

/-- PSRLQ mm, imm8: the quadword right by the immediate (43 R217). -/
def execPsrlqImm (rm : Reg) (imm : Byte) (s : State) : Host.Outcome State Fault Refusal :=
  (mmxUnary .base (fun d => shr d imm.toNat) s rm).outcome

/-- PSRAW mm, imm8: words right, arithmetically by the immediate (43 R218). -/
def execPsrawImm (rm : Reg) (imm : Byte) (s : State) : Host.Outcome State Fault Refusal :=
  (mmxUnary .base (shiftWords sar imm.toNat) s rm).outcome

/-- PSRAD mm, imm8: doublewords right, arithmetically by the immediate (43 R219). -/
def execPsradImm (rm : Reg) (imm : Byte) (s : State) : Host.Outcome State Fault Refusal :=
  (mmxUnary .base (shiftDwords sar imm.toNat) s rm).outcome

end Sys2Proof.Machine
end

