-- ==== Sys2Proof/Machine/System.lean ====
section
/-! DEFINITION. The system instructions of 49_msr_tsc_cpuid: RDTSC, RDMSR, WRMSR, CPUID. -/

namespace Sys2Proof.Machine

/-- `TscRead()`'s value: any value above the last one; after the last value of all, which the spec excludes, any value
(49 R364; log 15). -/
def tscValue (last draw : Qword) : Qword :=
  if last = BitVec.allOnes 64 then draw
  else BitVec.ofNat 64 (last.toNat + 1 + draw.toNat % (2 ^ 64 - 1 - last.toNat))

/-- The value the next read of the TSC draws (49 R364). -/
def State.nextTsc (s : State) : Qword := tscValue s.tscLast (Config.tscDraw s.draws)

/-- `TscRead()`: the value drawn becomes `tsc_last` (49 R364). -/
def State.tscRead (s : State) : State := { s with tscLast := s.nextTsc, draws := s.draws + 1 }

/-- RDTSC (49 R362). -/
def execRdtsc (s : State) : Host.Outcome State Fault Refusal :=
  Effect.outcome do
    raiseIf (s.tsd && s.cpl != 0#2) .gp s
    pure (s.tscRead.setEdxEax s.nextTsc)

/-- The checks of RDMSR and WRMSR: CPL = 0, and ECX names an MSR (49 R367, R368). -/
def msrCheck (s : State) : Except Stop Unit := do
  raiseIf (s.cpl != 0#2) .gp s
  raiseIf (!s.plat.msrExists (s.x ecx)) .gp s

/-- RDMSR (49 R367): the TSC, or a draw for any other MSR that exists (10_state R52; 92 D12; log 16). -/
def execRdmsr (s : State) : Host.Outcome State Fault Refusal :=
  Effect.outcome do
    msrCheck s
    if s.x ecx = s.plat.tscNumber then pure (s.tscRead.setEdxEax s.nextTsc)
    else pure ({ s with draws := s.draws + 1 }.setEdxEax (Config.msrDraw s.draws (s.x ecx)))

/-- WRMSR (49 R368): `TscWrite(zext_64(EAX))` for the TSC; for any other MSR that exists the spec refuses (92 D12; log 16). -/
def execWrmsr (s : State) : Host.Outcome State Fault Refusal :=
  Effect.outcome do
    msrCheck s
    if s.x ecx = s.plat.tscNumber then pure { s with tscLast := (s.x eax).setWidth 64 }
    else refuse (.otherMsrWrite (s.x ecx))

/-! ## CPUID (49 R366; the unconstrained parts free: log 17) -/

/-- The highest input value supported (49 R366). -/
def Platform.maxLeaf (p : Platform) : Dword :=
  match p.gen with
  | .pentiumMMX => 1#32
  | .pentiumII => 2#32
  | .pentiumIII => if p.serialNumber then 3#32 else 2#32

/-- The feature bits of EDX that R366 constrains: 4, 5, 23, 24, 25. -/
def featureMask : Dword := 0x03800030#32

/-- Their values (49 R366). -/
def Platform.features (p : Platform) : Dword :=
  0x00800030#32 ||| (if p.fxsr then 0x01000000#32 else 0#32) ||| (if p.gen == .pentiumIII then 0x02000000#32 else 0#32)

/-- The four values of an answer. -/
structure CpuidAnswer where
  a : Dword
  b : Dword
  c : Dword
  d : Dword
  deriving DecidableEq, Repr

/-- `Cpuid(eax_in)` (00_scope R9; 49 R366). -/
def Platform.cpuid (p : Platform) (leaf : Dword) : CpuidAnswer :=
  let free := Config.cpuidOpen p.gen leaf
  if leaf = 0#32 then ⟨p.maxLeaf, 0x756E6547#32, 0x6C65746E#32, 0x49656E69#32⟩
  else if leaf = 1#32 then
    ⟨p.signature, free.extractLsb' 32 32, free.extractLsb' 64 32,
      (free.extractLsb' 96 32 &&& ~~~featureMask) ||| p.features⟩
  else ⟨free.extractLsb' 0 32, free.extractLsb' 32 32, free.extractLsb' 64 32, free.extractLsb' 96 32⟩

/-- Write an answer: EAX, EBX, ECX, EDX (49 R366). -/
def State.setCpuid (s : State) (v : CpuidAnswer) : State :=
  (((s.setX eax v.a).setX ebx v.b).setX ecx v.c).setX edx v.d

/-- CPUID (49 R366): any privilege level, no exception. -/
def execCpuid (s : State) : Host.Outcome State Fault Refusal := .next (s.setCpuid (s.plat.cpuid (s.x eax)))

end Sys2Proof.Machine
end

