-- ==== Sys2Proof/Machine/Flags.lean ====
section
/-! DEFINITION. Flags: the fields of MXCSR (10_state R42), deciding the floating-point exceptions of an instruction (47 R288), and
the EFLAGS a scalar comparison sets (47 R305). -/

namespace Sys2Proof.Machine

/-- A set of floating-point exception flags, in the order of MXCSR bits 5:0: IE, DE, ZE, OE, UE, PE (10_state R42). -/
abbrev FpFlags := BitVec 6

/-- The empty set. -/
def noFlags : FpFlags := 0#6
/-- IE, invalid operation (10_state R42). -/
def flagIE : FpFlags := 1#6
/-- DE, denormal operand (10_state R42). -/
def flagDE : FpFlags := 2#6
/-- ZE, divide by zero (10_state R42). -/
def flagZE : FpFlags := 4#6
/-- OE, overflow (10_state R42). -/
def flagOE : FpFlags := 8#6
/-- UE, underflow (10_state R42). -/
def flagUE : FpFlags := 16#6
/-- PE, precision (10_state R42). -/
def flagPE : FpFlags := 32#6

/-- The set if the condition holds, else the empty set. -/
def flagsIf (c : Bool) (f : FpFlags) : FpFlags := if c then f else noFlags

/-- The masks IM, DM, ZM, OM, UM, PM: MXCSR bits 12:7, in the order of the flags (10_state R42). -/
def mxMasks (mx : Dword) : FpFlags := mx.extractLsb' 7 6

/-- UM, MXCSR bit 11 (10_state R42). -/
def mxUM (mx : Dword) : Bool := mx.getLsbD 11

/-- FZ, MXCSR bit 15 (10_state R42, R46). -/
def mxFZ (mx : Dword) : Bool := mx.getLsbD 15

/-- The four rounding modes (10_state R42; 47 R284). -/
inductive Rounding where
  | nearest | down | up | zero
  deriving DecidableEq, Repr

/-- RC, MXCSR bits 14:13 (10_state R42). -/
def mxRC (mx : Dword) : Rounding :=
  if mx.extractLsb' 13 2 = 0#2 then .nearest
  else if mx.extractLsb' 13 2 = 1#2 then .down
  else if mx.extractLsb' 13 2 = 2#2 then .up
  else .zero

/-- The reserved bits of MXCSR, 6 and 31:16 (10_state R42, R43). -/
def mxReserved : Dword := 0xFFFF0040#32

/-- The flags are sticky: set, never cleared (10_state R42; 47 R288). -/
def State.orMxcsr (s : State) (f : FpFlags) : State := { s with mxcsr := s.mxcsr ||| f.setWidth 32 }

/-- Whether some flag of a set has its mask bit 0 (47 R288). -/
def unmasked (mx : Dword) (f : FpFlags) : Bool := f &&& ~~~(mxMasks mx) != 0#6

/-- `SimdFault()`: #XM if CR4.OSXMMEXCPT = 1, #UD otherwise (47 R288; 60_exceptions R390). -/
def simdFault {α : Type} (s : State) : Except Stop α := if s.osxmmexcpt then raise .xm s else raise .ud s

/-- Deciding the exceptions of one instruction from the unions of its elements' pre- and post-computation flags: the state with the
flags recorded, or the fault, whose state has recorded them (47 R288; 60_exceptions R396). -/
def simdDecide (s : State) (pre post : FpFlags) : Effect :=
  if unmasked s.mxcsr pre then simdFault (s.orMxcsr pre)
  else if unmasked s.mxcsr post then simdFault ((s.orMxcsr pre).orMxcsr post)
  else .ok ((s.orMxcsr pre).orMxcsr post)

/-- The outcome of comparing two numbers (47 R289). -/
inductive Relation where
  | un | eq | lt | gt
  deriving DecidableEq, Repr

/-- The status flags of EFLAGS: OF 11, SF 7, ZF 6, AF 4, PF 2, CF 0 (10_state R25). -/
def statusFlags : Dword := 0x000008D5#32

/-- ZF, PF, CF per outcome (47 R305). -/
def relationFlags : Relation → Dword
  | .un => 0x00000045#32
  | .gt => 0x00000000#32
  | .lt => 0x00000001#32
  | .eq => 0x00000040#32

/-- What COMISS and UCOMISS make of EFLAGS: ZF, PF, CF per outcome, OF, SF, AF cleared, the other bits kept (47 R305; 10_state
R25). -/
def compareFlags (eflags : Dword) (r : Relation) : Dword := (eflags &&& ~~~statusFlags) ||| relationFlags r

end Sys2Proof.Machine
end

