-- ==== Sys2Proof/Machine/Float.lean ====
section
/-! DEFINITION. The floating-point helpers of 47_xmm_arithmetic_compare R282 to R290 and 48 R321: classes, exact values, rounding,
underflow, the element functions with the flags they signal, and their packed and scalar forms (47 R280). Every finite single is an
integer multiple of 2^-149, so exact values are integers and ratios of integers; nothing is approximated. -/

namespace Sys2Proof.Machine

/-- What an element operation delivers: its result under the masked response, the pre-computation flags (IE, DE, ZE) and the
post-computation flags (OE, UE, PE) it signals (47, section 2). -/
structure Signalled (α : Type) where
  res : α
  pre : FpFlags
  post : FpFlags
  deriving DecidableEq, Repr

/-- A result with pre-computation flags only. -/
def Signalled.early {α : Type} (res : α) (pre : FpFlags) : Signalled α := ⟨res, pre, noFlags⟩

/-! ## Classes (47 R282; 10_state R44) -/

/-- The class of a single-precision value (47 R282). -/
inductive FpClass where
  | zero | denormal | normal | inf | qnan | snan
  deriving DecidableEq, Repr

/-- `sign(v) = v[31]` (47 R282). -/
def fpSign (v : Dword) : Bool := v.getLsbD 31
/-- `exp(v) = v[30:23]` (47 R282). -/
def fpExp (v : Dword) : Nat := (v.extractLsb' 23 8).toNat
/-- `frac(v) = v[22:0]` (47 R282). -/
def fpFrac (v : Dword) : Nat := (v.extractLsb' 0 23).toNat

/-- The class (47 R282). -/
def fpClass (v : Dword) : FpClass :=
  if fpExp v = 0 then (if fpFrac v = 0 then .zero else .denormal)
  else if fpExp v < 255 then .normal
  else if fpFrac v = 0 then .inf
  else if v.getLsbD 22 then .qnan
  else .snan

/-- An SNaN (47 R282). -/
def isSNaN (v : Dword) : Bool := fpClass v == .snan
/-- A NaN of either kind (47 R282). -/
def isNaN (v : Dword) : Bool := fpClass v == .snan || fpClass v == .qnan
/-- A Zero of either sign (47 R282). -/
def isZero (v : Dword) : Bool := fpClass v == .zero
/-- An infinity of either sign (47 R282). -/
def isInf (v : Dword) : Bool := fpClass v == .inf
/-- A Denormal (47 R282). -/
def isDenormal (v : Dword) : Bool := fpClass v == .denormal

/-- `quiet(v)`: sets frac[22] (47 R282). -/
def quiet (v : Dword) : Dword := v ||| 0x00400000#32
/-- `QNaN_indef` (00_scope R17; 47 R282). -/
def qnanIndef : Dword := 0xFFC00000#32
/-- `Int_indef` (00_scope R17). -/
def intIndef : Dword := 0x80000000#32
/-- A 32-bit pattern with the given sign bit. -/
def withSign (neg : Bool) (v : BitVec 31) : Dword := BitVec.ofBool neg ++ v
/-- Zero of a sign (47 R282). -/
def zeroOf (neg : Bool) : Dword := withSign neg 0#31
/-- Infinity of a sign (47 R282). -/
def infOf (neg : Bool) : Dword := withSign neg 0x7F800000#31
/-- `MaxF`, the largest finite magnitude, of a sign (47 R282). -/
def maxOf (neg : Bool) : Dword := withSign neg 0x7F7FFFFF#31

/-- The significand of a finite value: frac, or 2^23 + frac where it is Normal (47 R282). -/
def fpMan (v : Dword) : Nat := if fpExp v = 0 then fpFrac v else 2 ^ 23 + fpFrac v

/-- The power of two that goes with it: |val(v)| = man 2^scale (47 R282). -/
def fpScale (v : Dword) : Int := if fpExp v = 0 then -149 else (fpExp v : Int) - 150

/-- `|val(v)|` of a finite value in units of 2^-149 (47 R282). -/
def fpMag (v : Dword) : Nat := fpMan v * 2 ^ (fpExp v - 1)

/-- `val(v)` of a finite value in units of 2^-149 (47 R282). -/
def fpUnits (v : Dword) : Int := if fpSign v then -(fpMag v : Int) else fpMag v

/-! ## Rounding (47 R284, R285) -/

/-- An exact non-zero real: (-1)^neg times (num + d) / den times 2^exp, with d = 0, or 0 < d < 1 where `sticky`; den is not 0, and
where `sticky`, den = 1. -/
structure Exact where
  neg : Bool
  num : Nat
  den : Nat
  exp : Int
  sticky : Bool
  deriving DecidableEq, Repr

/-- An integer times a power of two. -/
def Exact.ofInt (z : Int) (exp : Int) : Exact := ⟨decide (z < 0), z.natAbs, 1, exp, false⟩

/-- Whether |x| is at least 2^(l + exp). -/
def Exact.atLeast (x : Exact) (l : Int) : Bool :=
  if 0 ≤ l then decide (x.den * 2 ^ l.toNat ≤ x.num) else decide (x.den ≤ x.num * 2 ^ (-l).toNat)

/-- The binary exponent of |x|: 2^ilog ≤ |x| < 2^(ilog + 1). -/
def Exact.ilog (x : Exact) : Int :=
  let l : Int := (x.num.log2 : Int) - x.den.log2
  if x.atLeast l then l + x.exp else l - 1 + x.exp

/-- The numerator of |x| / 2^q as a ratio. -/
def Exact.scaledNum (x : Exact) (q : Int) : Nat := if x.exp ≤ q then x.num else x.num * 2 ^ (x.exp - q).toNat
/-- The denominator of |x| / 2^q as a ratio. -/
def Exact.scaledDen (x : Exact) (q : Int) : Nat := if x.exp ≤ q then x.den * 2 ^ (q - x.exp).toNat else x.den

/-- Whether x is an integer multiple of 2^q. -/
def Exact.isMultiple (x : Exact) (q : Int) : Bool := x.scaledNum q % x.scaledDen q == 0 && !x.sticky

/-- Whether a magnitude with quotient `n`, remainder `r` of `d` (and a rest below one unit of `r` where `sticky`) rounds away from
zero: nearest ties to even, down, up, toward zero (47 R284; 10_state R47). -/
def roundsAway (rc : Rounding) (neg : Bool) (n r d : Nat) (sticky : Bool) : Bool :=
  match rc with
  | .nearest => decide (d < 2 * r) || (decide (2 * r = d) && (sticky || n % 2 == 1))
  | .down => neg && (r != 0 || sticky)
  | .up => !neg && (r != 0 || sticky)
  | .zero => false

/-- The multiple of 2^q that |x| rounds to, in units of 2^q (47 R284). -/
def Exact.roundTo (x : Exact) (rc : Rounding) (q : Int) : Nat :=
  let n := x.scaledNum q / x.scaledDen q
  if roundsAway rc x.neg n (x.scaledNum q % x.scaledDen q) (x.scaledDen q) x.sticky then n + 1 else n

/-- The overflow result per RC and sign (47 R284). -/
def overflowResult (rc : Rounding) (neg : Bool) : Dword :=
  match rc with
  | .nearest => infOf neg
  | .down => if neg then infOf true else maxOf false
  | .up => if neg then maxOf true else infOf false
  | .zero => maxOf neg

/-- `Underflow(x)` (47 R285; 10_state R46). With UM = 0 no result is written; the flags then raise, PE among them where x is no multiple
of 2^-149, as vector V232 of 95_test_vectors has it (log 33). -/
def underflow (mx : Dword) (x : Exact) : Dword × FpFlags :=
  if !mxUM mx then (zeroOf x.neg, flagUE ||| flagsIf (!x.isMultiple (-149)) flagPE)
  else if mxFZ mx then (zeroOf x.neg, flagUE ||| flagPE)
  else (withSign x.neg (BitVec.ofNat 31 (x.roundTo (mxRC mx) (-149))),
    flagsIf (!x.isMultiple (-149)) (flagUE ||| flagPE))

/-- `Round(x)` (47 R284): 24 significant bits with unbounded exponent range, then overflow, tininess after rounding, or the
encoding. -/
def roundSingle (mx : Dword) (x : Exact) : Dword × FpFlags :=
  let q := x.ilog - 23
  let n := x.roundTo (mxRC mx) q
  let e := if n = 2 ^ 24 then q + 24 else q + 23
  let inexact := !x.isMultiple q
  if 128 ≤ e then (overflowResult (mxRC mx) x.neg, flagOE ||| flagPE)
  else if e < -126 then underflow mx x
  else (withSign x.neg (BitVec.ofNat 8 (e + 127).toNat ++ BitVec.ofNat 23 (n % 2 ^ 23)), flagsIf inexact flagPE)

/-- A rounded result beside pre-computation flags. -/
def rounded (mx : Dword) (pre : FpFlags) (x : Exact) : Signalled Dword := ⟨(roundSingle mx x).1, pre, (roundSingle mx x).2⟩

/-! ## Arithmetic (47 R283, R286) -/

/-- DE where an operand is a Denormal (47 R286 step 4). -/
def denormalFlag (a b : Dword) : FpFlags := flagsIf (isDenormal a || isDenormal b) flagDE

/-- `NaN2(a, b)` with its flags (47 R283). -/
def nan2 (a b : Dword) : Signalled Dword :=
  .early (if isNaN a then quiet a else quiet b) (flagsIf (isSNaN a || isSNaN b) flagIE)

/-- The exact result 0 of an addition: the common sign of two zeros, else +0, but -0 when RC = 01 (47 R286 step 6). -/
def exactZero (mx : Dword) (a b : Dword) : Dword :=
  if isZero a && isZero b && fpSign a == fpSign b then zeroOf (fpSign a) else zeroOf (mxRC mx == .down)

/-- `FpAdd` (47 R286). -/
def fpAdd (mx : Dword) (a b : Dword) : Signalled Dword :=
  if isNaN a || isNaN b then nan2 a b
  else if isInf a && isInf b && fpSign a != fpSign b then .early qnanIndef flagIE
  else if isInf a then .early a (denormalFlag a b)
  else if isInf b then .early b (denormalFlag a b)
  else if fpUnits a + fpUnits b = 0 then .early (exactZero mx a b) (denormalFlag a b)
  else rounded mx (denormalFlag a b) (.ofInt (fpUnits a + fpUnits b) (-149))

/-- `-b`: b with its sign bit flipped (47 R286). -/
def negate (b : Dword) : Dword := b ^^^ 0x80000000#32

/-- `FpSub`: a + (-b), but that a NaN operand is taken as it is (47 R283, R286). -/
def fpSub (mx : Dword) (a b : Dword) : Signalled Dword := if isNaN a || isNaN b then nan2 a b else fpAdd mx a (negate b)

/-- `FpMul` (47 R286). -/
def fpMul (mx : Dword) (a b : Dword) : Signalled Dword :=
  let neg := fpSign a ^^ fpSign b
  if isNaN a || isNaN b then nan2 a b
  else if (isZero a && isInf b) || (isInf a && isZero b) then .early qnanIndef flagIE
  else if isInf a || isInf b then .early (infOf neg) (denormalFlag a b)
  else if isZero a || isZero b then .early (zeroOf neg) (denormalFlag a b)
  else rounded mx (denormalFlag a b) ⟨neg, fpMan a * fpMan b, 1, fpScale a + fpScale b, false⟩

/-- `FpDiv`; `de` is the draw for a Denormal divided by zero (47 R286 and its note on step 3; log 19). -/
def fpDiv (de : Bool) (mx : Dword) (a b : Dword) : Signalled Dword :=
  let neg := fpSign a ^^ fpSign b
  if isNaN a || isNaN b then nan2 a b
  else if (isZero a && isZero b) || (isInf a && isInf b) then .early qnanIndef flagIE
  else if isZero b && !isInf a then .early (infOf neg) (flagZE ||| flagsIf (isDenormal a && de) flagDE)
  else if isInf a then .early (infOf neg) (denormalFlag a b)
  else if isInf b || isZero a then .early (zeroOf neg) (denormalFlag a b)
  else rounded mx (denormalFlag a b) ⟨neg, fpMan a, fpMan b, fpScale a - fpScale b, false⟩

/-- The integer square root by bits: the largest r + m with m < 2^k whose square is at most n. -/
def isqrtBits (n : Nat) : Nat → Nat → Nat
  | 0, r => r
  | k + 1, r => if (r + 2 ^ k) * (r + 2 ^ k) ≤ n then isqrtBits n k (r + 2 ^ k) else isqrtBits n k r

/-- The floor of the square root, for n below 2^428: |val| 2^149 2^151 of every finite single is. -/
def isqrt (n : Nat) : Nat := isqrtBits n 214 0

/-- The exact square root of a positive multiple m of 2^-149, as the root of m 2^151 in units of 2^-150. -/
def sqrtExact (m : Nat) : Exact :=
  let r := isqrt (m * 2 ^ 151)
  ⟨false, r, 1, -150, r * r != m * 2 ^ 151⟩

/-- `FpSqrt` (47 R286). -/
def fpSqrt (mx : Dword) (b : Dword) : Signalled Dword :=
  if isNaN b then .early (quiet b) (flagsIf (isSNaN b) flagIE)
  else if isZero b then .early b noFlags
  else if fpSign b then .early qnanIndef flagIE
  else if isInf b then .early b noFlags
  else rounded mx (flagsIf (isDenormal b) flagDE) (sqrtExact (fpMag b))

/-! ## Comparison (47 R287, R289, R305, R306) -/

/-- A key that orders the values that are no NaN: the infinities outside everything finite (47 R289). -/
def orderKey (v : Dword) : Int :=
  if isInf v then (if fpSign v then -(2 ^ 278) else 2 ^ 278) else fpUnits v

/-- `Rel(a, b)` (47 R289). -/
def relation (a b : Dword) : Relation :=
  if isNaN a || isNaN b then .un
  else if orderKey a = orderKey b then .eq
  else if orderKey a < orderKey b then .lt
  else .gt

/-- `FpMax` (47 R287). -/
def fpMax (a b : Dword) : Signalled Dword :=
  if isNaN a || isNaN b then .early b flagIE
  else if isZero a && isZero b then .early b noFlags
  else .early (if relation a b = .gt then a else b) (denormalFlag a b)

/-- `FpMin` (47 R287). -/
def fpMin (a b : Dword) : Signalled Dword :=
  if isNaN a || isNaN b then .early b flagIE
  else if isZero a && isZero b then .early b noFlags
  else .early (if relation a b = .lt then a else b) (denormalFlag a b)

/-- When the predicate of CMPPS and CMPSS is true (47 R289). -/
def predicateHolds (p : BitVec 3) (r : Relation) : Bool :=
  if p = 0#3 then r == .eq
  else if p = 1#3 then r == .lt
  else if p = 2#3 then r == .lt || r == .eq
  else if p = 3#3 then r == .un
  else if p = 4#3 then r == .lt || r == .gt || r == .un
  else if p = 5#3 then r == .eq || r == .gt || r == .un
  else if p = 6#3 then r == .gt || r == .un
  else r == .lt || r == .eq || r == .gt

/-- Whether the predicate signals IE for a QNaN operand: LT, LE, NLT, NLE (47 R289). -/
def predicateSignals (p : BitVec 3) : Bool := p == 1#3 || p == 2#3 || p == 5#3 || p == 6#3

/-- The flags of COMISS: IE for any NaN, else DE for a denormal (47 R305). -/
def orderedSignals (a b : Dword) : FpFlags := if isNaN a || isNaN b then flagIE else denormalFlag a b

/-- The flags of UCOMISS: IE for an SNaN, no flag beside a QNaN, else DE for a denormal (47 R306; 60_exceptions R393). -/
def unorderedSignals (a b : Dword) : FpFlags :=
  if isSNaN a || isSNaN b then flagIE else if isNaN a || isNaN b then noFlags else denormalFlag a b

/-- The flags of CMPPS and CMPSS; `onQuiet`: IE for a QNaN too (47 R289; DE beside a QNaN as its formula has it: log 36). -/
def compareSignals (onQuiet : Bool) (a b : Dword) : FpFlags :=
  if isSNaN a || isSNaN b || (onQuiet && (isNaN a || isNaN b)) then flagIE else denormalFlag a b

/-- `FpCmp` (47 R289). -/
def fpCmp (p : BitVec 3) (a b : Dword) : Signalled Dword :=
  .early (mask 32 (predicateHolds p (relation a b))) (compareSignals (predicateSignals p) a b)

/-! ## Conversion (48 R321) -/

/-- `IntToFp` (48 R321). -/
def intToFp (mx : Dword) (v : Dword) : Signalled Dword :=
  if v.toInt = 0 then .early 0#32 noFlags else rounded mx noFlags (.ofInt v.toInt 0)

/-- `FpToInt` in a rounding mode (48 R321). -/
def fpToInt (rc : Rounding) (v : Dword) : Signalled Dword :=
  if isNaN v || isInf v then .early intIndef flagIE
  else
    let x := Exact.ofInt (fpUnits v) (-149)
    let n : Int := if x.neg then -(x.roundTo rc 0 : Int) else x.roundTo rc 0
    if n < -(2 ^ 31) ∨ n > 2 ^ 31 - 1 then .early intIndef flagIE
    else ⟨BitVec.ofInt 32 n, noFlags, flagsIf (!x.isMultiple 0) flagPE⟩

/-! ## The approximations (47 R290; log 18) -/

/-- Whether a finite r is within relative error 1.5 2^-12 of 1 / val(b): |r b - 1| ≤ 3 / 8192. -/
def rcpClose (r b : Dword) : Bool :=
  decide ((fpUnits r * fpUnits b - 2 ^ 298).natAbs * 8192 ≤ 3 * 2 ^ 298)

/-- Whether a finite r > 0 is within relative error 1.5 2^-12 of 1 / sqrt(val(b)): (8189 / 8192)^2 ≤ r^2 b ≤ (8195 / 8192)^2. -/
def rsqrtClose (r b : Dword) : Bool :=
  decide (8189 ^ 2 * 2 ^ 447 ≤ fpMag r ^ 2 * fpMag b * 8192 ^ 2) && decide (fpMag r ^ 2 * fpMag b * 8192 ^ 2 ≤ 8195 ^ 2 * 2 ^ 447)

/-- Whether an approximation of 1 / val(b) may be denormal, so that it is flushed: (1 - 3 / 8192) / |b| < 2^-126. -/
def rcpMayFlush (b : Dword) : Bool := decide (8189 * 2 ^ 275 < 8192 * fpMag b)

/-- A result of the approximations that meets R290: the free candidate where it does, else the rounded reciprocal (of b, or of its
root to 75 bits or more), flushed to zero where that is denormal. -/
def approxResult (op : ApproxOp) (b : Dword) : Dword :=
  let c := Config.approx11 op b
  match op with
  | .rcp =>
    if fpClass c == .normal && rcpClose c b then c
    else if rcpMayFlush b && c == zeroOf (fpSign b) then c
    else (roundSingle 0x00009F80#32 ⟨fpSign b, 2 ^ 298, fpMag b, -149, false⟩).1
  | .rsqrt =>
    if fpClass c == .normal && !fpSign c && rsqrtClose c b then c
    else (roundSingle 0x00009F80#32 ⟨false, 2 ^ 300, isqrt (fpMag b * 2 ^ 151), -150, false⟩).1

/-- `Approx11(rcp, b)` (47 R290). -/
def fpRcp (b : Dword) : Dword :=
  if isNaN b then quiet b
  else if isInf b then zeroOf (fpSign b)
  else if isZero b || isDenormal b then infOf (fpSign b)
  else approxResult .rcp b

/-- `Approx11(rsqrt, b)` (47 R290). -/
def fpRsqrt (b : Dword) : Dword :=
  if isNaN b then quiet b
  else if isZero b then infOf (fpSign b)
  else if fpSign b then qnanIndef
  else if isInf b then zeroOf false
  else if isDenormal b then infOf false
  else approxResult .rsqrt b

/-! ## Packed and scalar forms (47 R280) -/

/-- An XMM value from its four elements (00_scope R12). -/
def ofElems (f : Nat → Dword) : Xword := f 3 ++ f 2 ++ f 1 ++ f 0

/-- The packed form: four element results, the flags united (47 R280, R288). -/
def packed (f : Nat → Signalled Dword) : Signalled Xword :=
  ⟨ofElems fun k => (f k).res, (f 0).pre ||| (f 1).pre ||| (f 2).pre ||| (f 3).pre,
    (f 0).post ||| (f 1).post ||| (f 2).post ||| (f 3).post⟩

/-- The scalar form: element 0 replaced, elements 1 to 3 of the destination unchanged (47 R280). -/
def lowElem (d : Xword) (v : Dword) : Xword := d.extractLsb' 32 96 ++ v

/-- The scalar form with its flags (47 R280). -/
def scalar (d : Xword) (r : Signalled Dword) : Signalled Xword := ⟨lowElem d r.res, r.pre, r.post⟩

/-- Two element results as one quadword, the flags united (48 R322 to R324). -/
def pair (f : Nat → Signalled Dword) : Signalled Qword :=
  ⟨ofDwords fun k => (f k).res, (f 0).pre ||| (f 1).pre, (f 0).post ||| (f 1).post⟩

/-- The low half of an XMM value replaced (46 R266, R268; 48 R322). -/
def lowHalf (d : Xword) (v : Qword) : Xword := d.extractLsb' 64 64 ++ v

/-- The high half of an XMM value replaced (46 R264, R267). -/
def highHalf (d : Xword) (v : Qword) : Xword := v ++ d.extractLsb' 0 64

end Sys2Proof.Machine
end

