-- ==== Sys2Proof/Machine/Numeric.lean ====
section
/-! DEFINITION. The XMM frame of the numeric instructions: compute, decide the floating-point exceptions, then write (46 R271 steps 4
and 5; 47 R280, R281, R288). -/

namespace Sys2Proof.Machine

/-- Decide the exceptions of a computed result, then write it (47 R288): all or nothing. -/
def finish {α : Type} (s : State) (c : Signalled α) (write : State → α → State) : Effect := do
  let t ← simdDecide s c.pre c.post
  pure (write t c.res)

/-- The numeric frame of the shape `xmm[reg] <- compute(DEST, SRC)`. -/
def xmmNumeric {w : Nat} (read : State → RM → Except Stop (BitVec w)) (compute : Xword → BitVec w → Signalled Xword) (s : State)
    (r : Reg) (rm : RM) : Effect := do
  xmmCheck s
  let src ← read s rm
  finish s (compute (s.xm r) src) fun t v => t.setXm r v

/-- The packed scheme with the element number (47 R280). -/
def packedWith (f : Nat → Dword → Dword → Signalled Dword) (d v : Xword) : Signalled Xword :=
  packed fun k => f k (elem 32 d k) (elem 32 v k)

/-- The packed scheme, m128 aligned (47 R280, R281). -/
def xmmPacked (f : Dword → Dword → Signalled Dword) (s : State) (r : Reg) (rm : RM) : Effect :=
  xmmNumeric xmm128 (packedWith fun _ => f) s r rm

/-- The scalar scheme, m32 at any address (47 R280, R281). -/
def xmmScalar (f : Dword → Dword → Signalled Dword) (s : State) (r : Reg) (rm : RM) : Effect :=
  xmmNumeric xmm32 (fun d v => scalar d (f (elem 32 d 0) v)) s r rm

/-- One draw used: the next one is another (log 11). -/
def State.drawn (s : State) : State := { s with draws := s.draws + 1 }

/-- The operand of CMPPS and CMPSS, read before the predicate is looked at: an imm8 above 7 is refused (46 R271; 47 R289; log 26). -/
def withPredicate {w : Nat} (imm : Byte) (read : State → RM → Except Stop (BitVec w)) (s : State) (rm : RM) :
    Except Stop (BitVec w) := do
  let v ← read s rm
  if 7 < imm.toNat then refuse (.reservedPredicate imm) else pure v

/-- A scalar comparison: decide the exceptions, then write EFLAGS; no XMM register is written (47 R305, R306). -/
def xmmCompare (signals : Dword → Dword → FpFlags) (s : State) (r : Reg) (rm : RM) : Effect := do
  xmmCheck s
  let b ← xmm32 s rm
  let a := elem 32 (s.xm r) 0
  finish s (.early (relation a b) (signals a b)) fun t c => { t with eflags := compareFlags t.eflags c }

/-- A conversion to a general register (48 R326, R327). -/
def xmmToGpr (f : Dword → Signalled Dword) (s : State) (r : Reg) (rm : RM) : Effect := do
  xmmCheck s
  let v ← xmm32 s rm
  finish s (f v) fun t i => t.setX r i

/-- A conversion of two elements to an MMX register, with the MMX transition (48 R323, R324). -/
def xmmToMmx (f : Dword → Signalled Dword) (s : State) (r : Reg) (rm : RM) : Effect := do
  xmmMmxCheck s
  let v ← xmm64 s rm
  finish s (pair fun k => f (elem 32 v k)) fun t i => (t.setMm r i).mmxEnter

end Sys2Proof.Machine
end

