-- ==== Sys2Proof/Machine/XmmArith.lean ====
section
/-! DEFINITION. The XMM arithmetic and comparison instructions of 47_xmm_arithmetic_compare. -/

namespace Sys2Proof.Machine

/-- ADDPS: four sums (47 R291). -/
def execAddps (r : Reg) (rm : RM) (s : State) : Host.Outcome State Fault Refusal := (xmmPacked (fpAdd s.mxcsr) s r rm).outcome

/-- ADDSS: sums of element 0 (47 R292). -/
def execAddss (r : Reg) (rm : RM) (s : State) : Host.Outcome State Fault Refusal := (xmmScalar (fpAdd s.mxcsr) s r rm).outcome

/-- SUBPS: four differences DEST - SRC (47 R297). -/
def execSubps (r : Reg) (rm : RM) (s : State) : Host.Outcome State Fault Refusal := (xmmPacked (fpSub s.mxcsr) s r rm).outcome

/-- SUBSS: differences DEST - SRC of element 0 (47 R298). -/
def execSubss (r : Reg) (rm : RM) (s : State) : Host.Outcome State Fault Refusal := (xmmScalar (fpSub s.mxcsr) s r rm).outcome

/-- MULPS: four products (47 R293). -/
def execMulps (r : Reg) (rm : RM) (s : State) : Host.Outcome State Fault Refusal := (xmmPacked (fpMul s.mxcsr) s r rm).outcome

/-- MULSS: products of element 0 (47 R294). -/
def execMulss (r : Reg) (rm : RM) (s : State) : Host.Outcome State Fault Refusal := (xmmScalar (fpMul s.mxcsr) s r rm).outcome

/-- DIVPS: four quotients DEST / SRC; one draw per instruction for DE at a denormal divided by zero (47 R299, R286; log 19). -/
def execDivps (r : Reg) (rm : RM) (s : State) : Host.Outcome State Fault Refusal :=
  Effect.outcome do
    let t ← xmmNumeric xmm128 (packedWith fun k => fpDiv (Config.divideDenormalDE s.draws k) s.mxcsr) s r rm
    pure t.drawn

/-- DIVSS: the quotient of element 0 (47 R311, R286; log 19). -/
def execDivss (r : Reg) (rm : RM) (s : State) : Host.Outcome State Fault Refusal :=
  Effect.outcome do
    let t ← xmmScalar (fpDiv (Config.divideDenormalDE s.draws 0) s.mxcsr) s r rm
    pure t.drawn

/-- MAXPS: four maxima (47 R301). -/
def execMaxps (r : Reg) (rm : RM) (s : State) : Host.Outcome State Fault Refusal := (xmmPacked fpMax s r rm).outcome

/-- MAXSS: maxima of element 0 (47 R302). -/
def execMaxss (r : Reg) (rm : RM) (s : State) : Host.Outcome State Fault Refusal := (xmmScalar fpMax s r rm).outcome

/-- MINPS: four minima (47 R303). -/
def execMinps (r : Reg) (rm : RM) (s : State) : Host.Outcome State Fault Refusal := (xmmPacked fpMin s r rm).outcome

/-- MINSS: minima of element 0 (47 R304). -/
def execMinss (r : Reg) (rm : RM) (s : State) : Host.Outcome State Fault Refusal := (xmmScalar fpMin s r rm).outcome

/-- SQRTPS: four square roots of the source (47 R295). -/
def execSqrtps (r : Reg) (rm : RM) (s : State) : Host.Outcome State Fault Refusal :=
  (xmmPacked (fun _ b => fpSqrt s.mxcsr b) s r rm).outcome

/-- SQRTSS: the square root of the source's element 0 (47 R296). -/
def execSqrtss (r : Reg) (rm : RM) (s : State) : Host.Outcome State Fault Refusal :=
  (xmmScalar (fun _ b => fpSqrt s.mxcsr b) s r rm).outcome

/-- RCPPS: four approximate reciprocals (47 R307, R290). -/
def execRcpps (r : Reg) (rm : RM) (s : State) : Host.Outcome State Fault Refusal :=
  (xmmBinary xmm128 (fun _ v => ofElems fun k => fpRcp (elem 32 v k)) s r rm).outcome

/-- RCPSS: the approximate reciprocal of element 0 (47 R308, R290). -/
def execRcpss (r : Reg) (rm : RM) (s : State) : Host.Outcome State Fault Refusal :=
  (xmmBinary xmm32 (fun d v => lowElem d (fpRcp v)) s r rm).outcome

/-- RSQRTPS: four approximate reciprocal square roots (47 R309, R290). -/
def execRsqrtps (r : Reg) (rm : RM) (s : State) : Host.Outcome State Fault Refusal :=
  (xmmBinary xmm128 (fun _ v => ofElems fun k => fpRsqrt (elem 32 v k)) s r rm).outcome

/-- RSQRTSS: the approximate reciprocal square root of element 0 (47 R310, R290). -/
def execRsqrtss (r : Reg) (rm : RM) (s : State) : Host.Outcome State Fault Refusal :=
  (xmmBinary xmm32 (fun d v => lowElem d (fpRsqrt v)) s r rm).outcome

/-- CMPPS: four masks by the predicate (47 R300). -/
def execCmpps (r : Reg) (rm : RM) (imm : Byte) (s : State) : Host.Outcome State Fault Refusal :=
  (xmmNumeric (withPredicate imm xmm128) (packedWith fun _ => fpCmp (imm.setWidth 3)) s r rm).outcome

/-- CMPSS: the mask of element 0 by the predicate (47 R312). -/
def execCmpss (r : Reg) (rm : RM) (imm : Byte) (s : State) : Host.Outcome State Fault Refusal :=
  (xmmNumeric (withPredicate imm xmm32) (fun d v => scalar d (fpCmp (imm.setWidth 3) (elem 32 d 0) v)) s r rm).outcome

/-- COMISS: EFLAGS from an ordered comparison, IE for any NaN (47 R305). -/
def execComiss (r : Reg) (rm : RM) (s : State) : Host.Outcome State Fault Refusal := (xmmCompare orderedSignals s r rm).outcome

/-- UCOMISS: EFLAGS from an unordered comparison, IE for an SNaN only (47 R306). -/
def execUcomiss (r : Reg) (rm : RM) (s : State) : Host.Outcome State Fault Refusal := (xmmCompare unorderedSignals s r rm).outcome

end Sys2Proof.Machine
end

