-- ==== Sys2Proof/Machine/XmmConvert.lean ====
section
/-! DEFINITION. The conversions of 48, section 1 (R321 to R327). -/

namespace Sys2Proof.Machine

/-- CVTPI2PS xmm, mm/m64: two integers into the low two elements, with the MMX transition (48 R322). -/
def execCvtpi2ps (r : Reg) (rm : RM) (s : State) : Host.Outcome State Fault Refusal :=
  Effect.outcome do
    xmmMmxCheck s
    let v ← mm64 s rm
    finish s (pair fun k => intToFp s.mxcsr (elem 32 v k)) fun t i => (t.setXm r (lowHalf (t.xm r) i)).mmxEnter

/-- CVTPS2PI mm, xmm/m64: the low two elements into integers, rounded by RC (48 R323). -/
def execCvtps2pi (r : Reg) (rm : RM) (s : State) : Host.Outcome State Fault Refusal :=
  (xmmToMmx (fpToInt (mxRC s.mxcsr)) s r rm).outcome

/-- CVTTPS2PI mm, xmm/m64: the low two elements into integers, truncated (48 R324). -/
def execCvttps2pi (r : Reg) (rm : RM) (s : State) : Host.Outcome State Fault Refusal :=
  (xmmToMmx (fpToInt .zero) s r rm).outcome

/-- CVTSI2SS xmm, r/m32: an integer into element 0 (48 R325). -/
def execCvtsi2ss (r : Reg) (rm : RM) (s : State) : Host.Outcome State Fault Refusal :=
  (xmmNumeric gp32 (fun d v => scalar d (intToFp s.mxcsr v)) s r rm).outcome

/-- CVTSS2SI r32, xmm/m32: element 0 into an integer, rounded by RC (48 R326). -/
def execCvtss2si (r : Reg) (rm : RM) (s : State) : Host.Outcome State Fault Refusal :=
  (xmmToGpr (fpToInt (mxRC s.mxcsr)) s r rm).outcome

/-- CVTTSS2SI r32, xmm/m32: element 0 into an integer, truncated (48 R327). -/
def execCvttss2si (r : Reg) (rm : RM) (s : State) : Host.Outcome State Fault Refusal :=
  (xmmToGpr (fpToInt .zero) s r rm).outcome

end Sys2Proof.Machine
end

