-- ==== Sys2Proof/Machine/XmmLogic.lean ====
section
/-! DEFINITION. The XMM logical instructions (48 R329 to R333), shuffle and unpack (48 R345 to R347), and the hints PREFETCHh and SFENCE
(48 R356, R357). -/

namespace Sys2Proof.Machine

/-- ANDPS: DEST and SRC (48 R330). -/
def execAndps (r : Reg) (rm : RM) (s : State) : Host.Outcome State Fault Refusal :=
  (xmmBinary xmm128 (fun d v => d &&& v) s r rm).outcome

/-- ANDNPS: (not DEST) and SRC (48 R331). -/
def execAndnps (r : Reg) (rm : RM) (s : State) : Host.Outcome State Fault Refusal :=
  (xmmBinary xmm128 (fun d v => ~~~d &&& v) s r rm).outcome

/-- ORPS: DEST or SRC (48 R332). -/
def execOrps (r : Reg) (rm : RM) (s : State) : Host.Outcome State Fault Refusal :=
  (xmmBinary xmm128 (fun d v => d ||| v) s r rm).outcome

/-- XORPS: DEST xor SRC (48 R333). -/
def execXorps (r : Reg) (rm : RM) (s : State) : Host.Outcome State Fault Refusal :=
  (xmmBinary xmm128 (fun d v => d ^^^ v) s r rm).outcome

/-- SHUFPS: two elements of the destination below two of the source, chosen by imm8 (48 R345). -/
def shuffleElems (imm : Byte) (d v : Xword) : Xword :=
  ofElems fun k => if k < 2 then elem 32 d (elem 2 imm k).toNat else elem 32 v (elem 2 imm k).toNat

/-- UNPCKHPS and UNPCKLPS: two elements of each operand from `base` up, the destination's first in each pair (48 R346, R347). -/
def interleaveElems (base : Nat) (d v : Xword) : Xword :=
  ofElems fun k => if k % 2 = 0 then elem 32 d (base + k / 2) else elem 32 v (base + k / 2)

/-- SHUFPS xmm, xmm/m128, imm8 (48 R345). -/
def execShufps (r : Reg) (rm : RM) (imm : Byte) (s : State) : Host.Outcome State Fault Refusal :=
  (xmmBinary xmm128 (shuffleElems imm) s r rm).outcome

/-- UNPCKHPS xmm, xmm/m128 (48 R346). -/
def execUnpckhps (r : Reg) (rm : RM) (s : State) : Host.Outcome State Fault Refusal :=
  (xmmBinary xmm128 (interleaveElems 2) s r rm).outcome

/-- UNPCKLPS xmm, xmm/m128 (48 R347). -/
def execUnpcklps (r : Reg) (rm : RM) (s : State) : Host.Outcome State Fault Refusal :=
  (xmmBinary xmm128 (interleaveElems 0) s r rm).outcome

/-- PREFETCHNTA m8 (48 R356). -/
def execPrefetchnta (_m : Mem) (s : State) : Host.Outcome State Fault Refusal := (hint s).outcome

/-- PREFETCHT0 m8 (48 R356). -/
def execPrefetcht0 (_m : Mem) (s : State) : Host.Outcome State Fault Refusal := (hint s).outcome

/-- PREFETCHT1 m8 (48 R356). -/
def execPrefetcht1 (_m : Mem) (s : State) : Host.Outcome State Fault Refusal := (hint s).outcome

/-- PREFETCHT2 m8 (48 R356). -/
def execPrefetcht2 (_m : Mem) (s : State) : Host.Outcome State Fault Refusal := (hint s).outcome

/-- SFENCE: in the single-agent model, nothing but the pc (48 R357; 20_memory R81). -/
def execSfence (s : State) : Host.Outcome State Fault Refusal := (hint s).outcome

end Sys2Proof.Machine
end

