-- ==== Sys2Proof/Machine/XmmMove.lean ====
section
/-! DEFINITION. The XMM data movement instructions of 46_xmm_data_movement, in the frame of R271, and MOVNTPS (48 R352). -/

namespace Sys2Proof.Machine

/-- MOVAPS xmm, xmm/m128, aligned (46 R260). -/
def execMovapsLoad (r : Reg) (rm : RM) (s : State) : Host.Outcome State Fault Refusal :=
  (xmmBinary xmm128 (fun _ v => v) s r rm).outcome

/-- MOVAPS xmm/m128, xmm, aligned (46 R261). -/
def execMovapsStore (r : Reg) (rm : RM) (s : State) : Host.Outcome State Fault Refusal :=
  (xmmStore 16 true State.setXm s rm (s.xm r)).outcome

/-- MOVUPS xmm, xmm/m128, at any address (46 R262). -/
def execMovupsLoad (r : Reg) (rm : RM) (s : State) : Host.Outcome State Fault Refusal :=
  (xmmBinary xmm128u (fun _ v => v) s r rm).outcome

/-- MOVUPS xmm/m128, xmm, at any address (46 R263). -/
def execMovupsStore (r : Reg) (rm : RM) (s : State) : Host.Outcome State Fault Refusal :=
  (xmmStore 16 false State.setXm s rm (s.xm r)).outcome

/-- MOVHPS xmm, m64: the high half from memory (46 R264). -/
def execMovhpsLoad (r : Reg) (m : Mem) (s : State) : Host.Outcome State Fault Refusal :=
  (xmmBinary xmm64 highHalf s r (.mem m)).outcome

/-- MOVHPS m64, xmm: the high half to memory (46 R265). -/
def execMovhpsStore (r : Reg) (m : Mem) (s : State) : Host.Outcome State Fault Refusal :=
  (xmmStore 8 false (fun t _ _ => t) s (.mem m) ((s.xm r).extractLsb' 64 64)).outcome

/-- MOVHLPS xmm, xmm: the low half from the source's high half (46 R266). -/
def execMovhlps (r rm : Reg) (s : State) : Host.Outcome State Fault Refusal :=
  (xmmBinary xmm128 (fun d v => lowHalf d (v.extractLsb' 64 64)) s r (.reg rm)).outcome

/-- MOVLHPS xmm, xmm: the high half from the source's low half (46 R267). -/
def execMovlhps (r rm : Reg) (s : State) : Host.Outcome State Fault Refusal :=
  (xmmBinary xmm128 (fun d v => highHalf d (v.extractLsb' 0 64)) s r (.reg rm)).outcome

/-- MOVLPS xmm, m64: the low half from memory (46 R268). -/
def execMovlpsLoad (r : Reg) (m : Mem) (s : State) : Host.Outcome State Fault Refusal :=
  (xmmBinary xmm64 lowHalf s r (.mem m)).outcome

/-- MOVLPS m64, xmm: the low half to memory (46 R269). -/
def execMovlpsStore (r : Reg) (m : Mem) (s : State) : Host.Outcome State Fault Refusal :=
  (xmmStore 8 false (fun t _ _ => t) s (.mem m) ((s.xm r).extractLsb' 0 64)).outcome

/-- MOVMSKPS: bit k is the sign bit of element k, bits 31:4 are 0 (46 R270). -/
def signMask (v : Xword) : Dword :=
  (v.extractLsb' 127 1 ++ v.extractLsb' 95 1 ++ v.extractLsb' 63 1 ++ v.extractLsb' 31 1).setWidth 32

/-- MOVMSKPS r32, xmm: the four sign bits (46 R270). -/
def execMovmskps (r rm : Reg) (s : State) : Host.Outcome State Fault Refusal :=
  Effect.outcome do
    xmmCheck s
    pure (s.setX r (signMask (s.xm rm)))

/-- What MOVSS writes: from a register, element 0 alone; from memory, bits 127:32 zeroed (46 R272; 90_conflicts C20). -/
def movssResult (rm : RM) (d : Xword) (v : Dword) : Xword :=
  match rm with
  | .reg _ => lowElem d v
  | .mem _ => v.setWidth 128

/-- MOVSS xmm, xmm/m32 (46 R272). -/
def execMovssLoad (r : Reg) (rm : RM) (s : State) : Host.Outcome State Fault Refusal :=
  (xmmBinary xmm32 (movssResult rm) s r rm).outcome

/-- MOVSS xmm/m32, xmm: element 0 moved out (46 R273). -/
def execMovssStore (r : Reg) (rm : RM) (s : State) : Host.Outcome State Fault Refusal :=
  (xmmStore 4 false (fun t q v => t.setXm q (lowElem (t.xm q) v)) s rm (elem 32 (s.xm r) 0)).outcome

/-- MOVNTPS m128, xmm: an aligned store past the caches; with one agent, a store (48 R352; 20_memory R85). -/
def execMovntps (r : Reg) (m : Mem) (s : State) : Host.Outcome State Fault Refusal :=
  (xmmStore 16 true State.setXm s (.mem m) (s.xm r)).outcome

end Sys2Proof.Machine
end

