-- ==== Sys2Proof/Machine/XmmState.lean ====
section
/-! DEFINITION. State management: LDMXCSR, STMXCSR, FXSAVE and FXRSTOR with the 512-byte area (48 R338 to R341). -/

namespace Sys2Proof.Machine

/-- Whether a value has a 1 in a reserved bit of MXCSR (10_state R43). -/
def mxcsrIllegal (v : Dword) : Bool := v &&& mxReserved != 0#32

/-- LDMXCSR m32 (48 R338). -/
def execLdmxcsr (m : Mem) (s : State) : Host.Outcome State Fault Refusal :=
  Effect.outcome do
    xmmCheck s
    let v ← load 32 4 false s (s.lin m)
    raiseIf (mxcsrIllegal v) .gp s
    pure { s with mxcsr := v }

/-- STMXCSR m32 (48 R339). -/
def execStmxcsr (m : Mem) (s : State) : Host.Outcome State Fault Refusal :=
  Effect.outcome (xmmStore 4 false (fun t _ _ => t) s (.mem m) s.mxcsr)

/-! ## The 512-byte area (48 R340) -/

/-- SWR.TOS, bits 13:11 (10_state R26). -/
def tosOf (swr : Word) : Reg := swr.extractLsb' 11 3

/-- Field i of TWR, bits 2i+1:2i (10_state R26). -/
def tagOf (twr : Word) (i : Nat) : BitVec 2 := elem 2 twr i

/-- A byte from its 8 bits, bit 0 first given by `f 0`. -/
def ofBits (f : Nat → Bool) : Byte :=
  BitVec.ofBool (f 7) ++ BitVec.ofBool (f 6) ++ BitVec.ofBool (f 5) ++ BitVec.ofBool (f 4) ++ BitVec.ofBool (f 3) ++
    BitVec.ofBool (f 2) ++ BitVec.ofBool (f 1) ++ BitVec.ofBool (f 0)

/-- The abridged tag byte: bit i = 0 if TWR field i is 11b (48 R340). -/
def abridgedTags (twr : Word) : Byte := ofBits fun i => tagOf twr i != 3#2

/-- `n` bytes from offset `off` whose content is not specified (48 R340; log 20). -/
def openBytes (draw off : Nat) : Nat → List Byte
  | 0 => []
  | n + 1 => Config.fxsaveByte draw off :: openBytes draw (off + 1) n

/-- The physical register in stack slot j: (TOS + j) mod 8 (48 R340; 10_state R26). -/
def stackReg (tos : Reg) (j : Nat) : Reg := tos + BitVec.ofNat 3 j

/-- Slot j of the stack: ST(j), 10 bytes, then 6 reserved bytes (48 R340). -/
def stackSlot (s : State) (j : Nat) : List Byte :=
  valueBytes 10 (s.fp (stackReg (tosOf s.swr) j)) ++ openBytes s.draws (42 + 16 * j) 6

/-- Whether FXSAVE stores MXCSR and the XMM registers: while CR4.OSFXSR = 0 the implementation decides (48 R340). DESIGN CHOICE: to run there, where R340
has the model refuse (log 21). -/
def savesXmm (s : State) : Bool := s.osfxsr || Config.fxsaveXmmWhenOff

/-- The MXCSR field. -/
def mxcsrField (s : State) : List Byte := if savesXmm s then valueBytes 4 s.mxcsr else openBytes s.draws 24 4

/-- Slot j of the XMM registers (48 R340). -/
def xmmSlot (s : State) (j : Nat) : List Byte :=
  if savesXmm s then valueBytes 16 (s.xm (BitVec.ofNat 3 j)) else openBytes s.draws (160 + 16 * j) 16

/-- The first 32 bytes (48 R340): CWR, SWR, tags, a reserved byte, the opcode and pointer fields, MXCSR, 4 reserved bytes. -/
def imageHead (s : State) : List Byte :=
  valueBytes 2 s.cwr ++ valueBytes 2 s.swr ++ [abridgedTags s.twr] ++ openBytes s.draws 5 19 ++ mxcsrField s ++
    openBytes s.draws 28 4

/-- The 512 bytes FXSAVE writes (48 R340). -/
def fxsaveImage (s : State) : List Byte :=
  imageHead s ++ (List.range 8).flatMap (stackSlot s) ++ (List.range 8).flatMap (xmmSlot s) ++ openBytes s.draws 288 224

/-- The checks of FXSAVE and FXRSTOR: the generation, CR0.EM, CR0.TS; not CR4.OSFXSR (48 R340; 60_exceptions R384, R385). -/
def fxCheck (s : State) : Except Stop Unit := do
  raiseIf (!s.plat.fxsr) .ud s
  raiseIf s.em .ud s
  raiseIf s.ts .nm s

/-- FXSAVE m512byte (48 R340): no register changes. One draw selects the unspecified bytes (log 20). -/
def execFxsave (m : Mem) (s : State) : Host.Outcome State Fault Refusal :=
  Effect.outcome do
    fxCheck s
    memCheck .write true s (s.lin m) 512
    pure { s with mem := s.mem.writeBytes (s.lin m) (fxsaveImage s), draws := s.draws + 1 }

/-- A field of the area, at an offset from M (48 R340). -/
def areaField (s : State) (a : Addr) (off w n : Nat) : BitVec w := s.mem.readValue (a + BitVec.ofNat 32 off) w n

/-- The tag class of a loaded register (48 R341). -/
def tagClass (v : Fpr80) : BitVec 2 :=
  if v.extractLsb' 0 79 = 0#79 then 1#2
  else if v.extractLsb' 64 15 ≠ 0#15 ∧ v.extractLsb' 64 15 ≠ 0x7FFF#15 ∧ v.getLsbD 63 then 0#2
  else 2#2

/-- Field i of the rebuilt TWR: empty where the tag byte's bit is 0, else the class (48 R341). -/
def loadedTag (tags : Byte) (fpr : Reg → Fpr80) (i : Nat) : BitVec 2 :=
  if tags.getLsbD i then tagClass (fpr (BitVec.ofNat 3 i)) else 3#2

/-- A tag word from its 8 fields (10_state R26). -/
def ofTags (f : Nat → BitVec 2) : Word := f 7 ++ f 6 ++ f 5 ++ f 4 ++ f 3 ++ f 2 ++ f 1 ++ f 0

/-- FPRi from the area: slot j with FPR[(TOS' + j) mod 8], so j = i - TOS' mod 8 (48 R341). -/
def areaFpr (s : State) (a : Addr) (i : Reg) : Fpr80 :=
  areaField s a (32 + 16 * (i - tosOf (areaField s a 2 16 2)).toNat) 80 10

/-- A register file of 8 from its entries by code. -/
def ofCodes {α : Type} (f : Reg → α) : Vector α 8 := #v[f 0#3, f 1#3, f 2#3, f 3#3, f 4#3, f 5#3, f 6#3, f 7#3]

/-- Load the coprocessor's part of the area (48 R341). -/
def loadX87 (s : State) (a : Addr) : State :=
  { s with
    cwr := areaField s a 0 16 2
    swr := areaField s a 2 16 2
    twr := ofTags (loadedTag (areaField s a 4 8 1) (areaFpr s a))
    fpr := ofCodes (areaFpr s a) }

/-- Whether FXRSTOR loads MXCSR and the XMM registers: while CR4.OSFXSR = 0 the implementation decides (48 R340, R341). DESIGN CHOICE: to
run there, where R340 has the model refuse (log 21). -/
def loadsXmm (s : State) : Bool := s.osfxsr || Config.fxrstorXmmWhenOff

/-- Load the XMM part of the area (48 R341); `t` is the state so far, `s` the one whose memory is read. -/
def loadXmm (t s : State) (a : Addr) : State :=
  if loadsXmm s then
    { t with
      mxcsr := areaField s a 24 32 4
      xmm := ofCodes fun j => areaField s a (160 + 16 * j.toNat) 128 16 }
  else t

/-- FXRSTOR m512byte (48 R341): nothing is loaded where the image's MXCSR has a reserved bit. -/
def execFxrstor (m : Mem) (s : State) : Host.Outcome State Fault Refusal :=
  Effect.outcome do
    fxCheck s
    memCheck .read true s (s.lin m) 512
    raiseIf (mxcsrIllegal (areaField s (s.lin m) 24 32 4)) .gp s
    pure (loadXmm (loadX87 s (s.lin m)) s (s.lin m))

end Sys2Proof.Machine
end

