-- ==== Sys2Proof/Machine/Dispatch.lean ====
section
/-! DEFINITION. The one match over the instructions: each arm calls its meaning. -/

namespace Sys2Proof.Machine

def exec (i : Instr) (s : State) : Host.Outcome State Fault Refusal :=
  match i with
  | .punpcklbw r rm => Sys2Proof.Machine.execPunpcklbw r rm s
  | .punpcklwd r rm => Sys2Proof.Machine.execPunpcklwd r rm s
  | .punpckldq r rm => Sys2Proof.Machine.execPunpckldq r rm s
  | .packsswb r rm => Sys2Proof.Machine.execPacksswb r rm s
  | .pcmpgtb r rm => Sys2Proof.Machine.execPcmpgtb r rm s
  | .pcmpgtw r rm => Sys2Proof.Machine.execPcmpgtw r rm s
  | .pcmpgtd r rm => Sys2Proof.Machine.execPcmpgtd r rm s
  | .packuswb r rm => Sys2Proof.Machine.execPackuswb r rm s
  | .punpckhbw r rm => Sys2Proof.Machine.execPunpckhbw r rm s
  | .punpckhwd r rm => Sys2Proof.Machine.execPunpckhwd r rm s
  | .punpckhdq r rm => Sys2Proof.Machine.execPunpckhdq r rm s
  | .packssdw r rm => Sys2Proof.Machine.execPackssdw r rm s
  | .movdLoad r rm => Sys2Proof.Machine.execMovdLoad r rm s
  | .movqLoad r rm => Sys2Proof.Machine.execMovqLoad r rm s
  | .pcmpeqb r rm => Sys2Proof.Machine.execPcmpeqb r rm s
  | .pcmpeqw r rm => Sys2Proof.Machine.execPcmpeqw r rm s
  | .pcmpeqd r rm => Sys2Proof.Machine.execPcmpeqd r rm s
  | .movdStore r rm => Sys2Proof.Machine.execMovdStore r rm s
  | .movqStore r rm => Sys2Proof.Machine.execMovqStore r rm s
  | .psrlw r rm => Sys2Proof.Machine.execPsrlw r rm s
  | .psrld r rm => Sys2Proof.Machine.execPsrld r rm s
  | .psrlq r rm => Sys2Proof.Machine.execPsrlq r rm s
  | .pmullw r rm => Sys2Proof.Machine.execPmullw r rm s
  | .psubusb r rm => Sys2Proof.Machine.execPsubusb r rm s
  | .psubusw r rm => Sys2Proof.Machine.execPsubusw r rm s
  | .pand r rm => Sys2Proof.Machine.execPand r rm s
  | .paddusb r rm => Sys2Proof.Machine.execPaddusb r rm s
  | .paddusw r rm => Sys2Proof.Machine.execPaddusw r rm s
  | .pandn r rm => Sys2Proof.Machine.execPandn r rm s
  | .psraw r rm => Sys2Proof.Machine.execPsraw r rm s
  | .psrad r rm => Sys2Proof.Machine.execPsrad r rm s
  | .pmulhw r rm => Sys2Proof.Machine.execPmulhw r rm s
  | .psubsb r rm => Sys2Proof.Machine.execPsubsb r rm s
  | .psubsw r rm => Sys2Proof.Machine.execPsubsw r rm s
  | .por r rm => Sys2Proof.Machine.execPor r rm s
  | .paddsb r rm => Sys2Proof.Machine.execPaddsb r rm s
  | .paddsw r rm => Sys2Proof.Machine.execPaddsw r rm s
  | .pxor r rm => Sys2Proof.Machine.execPxor r rm s
  | .psllw r rm => Sys2Proof.Machine.execPsllw r rm s
  | .pslld r rm => Sys2Proof.Machine.execPslld r rm s
  | .psllq r rm => Sys2Proof.Machine.execPsllq r rm s
  | .pmaddwd r rm => Sys2Proof.Machine.execPmaddwd r rm s
  | .psubb r rm => Sys2Proof.Machine.execPsubb r rm s
  | .psubw r rm => Sys2Proof.Machine.execPsubw r rm s
  | .psubd r rm => Sys2Proof.Machine.execPsubd r rm s
  | .paddb r rm => Sys2Proof.Machine.execPaddb r rm s
  | .paddw r rm => Sys2Proof.Machine.execPaddw r rm s
  | .paddd r rm => Sys2Proof.Machine.execPaddd r rm s
  | .emms => Sys2Proof.Machine.execEmms s
  | .psrlwImm rm imm => Sys2Proof.Machine.execPsrlwImm rm imm s
  | .psrawImm rm imm => Sys2Proof.Machine.execPsrawImm rm imm s
  | .psllwImm rm imm => Sys2Proof.Machine.execPsllwImm rm imm s
  | .psrldImm rm imm => Sys2Proof.Machine.execPsrldImm rm imm s
  | .psradImm rm imm => Sys2Proof.Machine.execPsradImm rm imm s
  | .pslldImm rm imm => Sys2Proof.Machine.execPslldImm rm imm s
  | .psrlqImm rm imm => Sys2Proof.Machine.execPsrlqImm rm imm s
  | .psllqImm rm imm => Sys2Proof.Machine.execPsllqImm rm imm s
  | .pshufw r rm imm => Sys2Proof.Machine.execPshufw r rm imm s
  | .pinsrw r rm imm => Sys2Proof.Machine.execPinsrw r rm imm s
  | .pextrw r rm imm => Sys2Proof.Machine.execPextrw r rm imm s
  | .pmovmskb r rm => Sys2Proof.Machine.execPmovmskb r rm s
  | .pminub r rm => Sys2Proof.Machine.execPminub r rm s
  | .pmaxub r rm => Sys2Proof.Machine.execPmaxub r rm s
  | .pavgb r rm => Sys2Proof.Machine.execPavgb r rm s
  | .pavgw r rm => Sys2Proof.Machine.execPavgw r rm s
  | .pmulhuw r rm => Sys2Proof.Machine.execPmulhuw r rm s
  | .pminsw r rm => Sys2Proof.Machine.execPminsw r rm s
  | .pmaxsw r rm => Sys2Proof.Machine.execPmaxsw r rm s
  | .psadbw r rm => Sys2Proof.Machine.execPsadbw r rm s
  | .movntq r m => Sys2Proof.Machine.execMovntq r m s
  | .maskmovq r rm ovr size => Sys2Proof.Machine.execMaskmovq r rm ovr size s
  | .movupsLoad r rm => Sys2Proof.Machine.execMovupsLoad r rm s
  | .movupsStore r rm => Sys2Proof.Machine.execMovupsStore r rm s
  | .movssLoad r rm => Sys2Proof.Machine.execMovssLoad r rm s
  | .movssStore r rm => Sys2Proof.Machine.execMovssStore r rm s
  | .movlpsLoad r m => Sys2Proof.Machine.execMovlpsLoad r m s
  | .movhlps r rm => Sys2Proof.Machine.execMovhlps r rm s
  | .movlpsStore r m => Sys2Proof.Machine.execMovlpsStore r m s
  | .unpcklps r rm => Sys2Proof.Machine.execUnpcklps r rm s
  | .unpckhps r rm => Sys2Proof.Machine.execUnpckhps r rm s
  | .movhpsLoad r m => Sys2Proof.Machine.execMovhpsLoad r m s
  | .movlhps r rm => Sys2Proof.Machine.execMovlhps r rm s
  | .movhpsStore r m => Sys2Proof.Machine.execMovhpsStore r m s
  | .prefetchnta m => Sys2Proof.Machine.execPrefetchnta m s
  | .prefetcht0 m => Sys2Proof.Machine.execPrefetcht0 m s
  | .prefetcht1 m => Sys2Proof.Machine.execPrefetcht1 m s
  | .prefetcht2 m => Sys2Proof.Machine.execPrefetcht2 m s
  | .movapsLoad r rm => Sys2Proof.Machine.execMovapsLoad r rm s
  | .movapsStore r rm => Sys2Proof.Machine.execMovapsStore r rm s
  | .cvtpi2ps r rm => Sys2Proof.Machine.execCvtpi2ps r rm s
  | .cvtsi2ss r rm => Sys2Proof.Machine.execCvtsi2ss r rm s
  | .movntps r m => Sys2Proof.Machine.execMovntps r m s
  | .cvttps2pi r rm => Sys2Proof.Machine.execCvttps2pi r rm s
  | .cvttss2si r rm => Sys2Proof.Machine.execCvttss2si r rm s
  | .cvtps2pi r rm => Sys2Proof.Machine.execCvtps2pi r rm s
  | .cvtss2si r rm => Sys2Proof.Machine.execCvtss2si r rm s
  | .ucomiss r rm => Sys2Proof.Machine.execUcomiss r rm s
  | .comiss r rm => Sys2Proof.Machine.execComiss r rm s
  | .movmskps r rm => Sys2Proof.Machine.execMovmskps r rm s
  | .sqrtps r rm => Sys2Proof.Machine.execSqrtps r rm s
  | .sqrtss r rm => Sys2Proof.Machine.execSqrtss r rm s
  | .rsqrtps r rm => Sys2Proof.Machine.execRsqrtps r rm s
  | .rsqrtss r rm => Sys2Proof.Machine.execRsqrtss r rm s
  | .rcpps r rm => Sys2Proof.Machine.execRcpps r rm s
  | .rcpss r rm => Sys2Proof.Machine.execRcpss r rm s
  | .andps r rm => Sys2Proof.Machine.execAndps r rm s
  | .andnps r rm => Sys2Proof.Machine.execAndnps r rm s
  | .orps r rm => Sys2Proof.Machine.execOrps r rm s
  | .xorps r rm => Sys2Proof.Machine.execXorps r rm s
  | .addps r rm => Sys2Proof.Machine.execAddps r rm s
  | .addss r rm => Sys2Proof.Machine.execAddss r rm s
  | .mulps r rm => Sys2Proof.Machine.execMulps r rm s
  | .mulss r rm => Sys2Proof.Machine.execMulss r rm s
  | .subps r rm => Sys2Proof.Machine.execSubps r rm s
  | .subss r rm => Sys2Proof.Machine.execSubss r rm s
  | .minps r rm => Sys2Proof.Machine.execMinps r rm s
  | .minss r rm => Sys2Proof.Machine.execMinss r rm s
  | .divps r rm => Sys2Proof.Machine.execDivps r rm s
  | .divss r rm => Sys2Proof.Machine.execDivss r rm s
  | .maxps r rm => Sys2Proof.Machine.execMaxps r rm s
  | .maxss r rm => Sys2Proof.Machine.execMaxss r rm s
  | .fxsave m => Sys2Proof.Machine.execFxsave m s
  | .fxrstor m => Sys2Proof.Machine.execFxrstor m s
  | .ldmxcsr m => Sys2Proof.Machine.execLdmxcsr m s
  | .stmxcsr m => Sys2Proof.Machine.execStmxcsr m s
  | .sfence => Sys2Proof.Machine.execSfence s
  | .cmpps r rm imm => Sys2Proof.Machine.execCmpps r rm imm s
  | .cmpss r rm imm => Sys2Proof.Machine.execCmpss r rm imm s
  | .shufps r rm imm => Sys2Proof.Machine.execShufps r rm imm s
  | .wrmsr => Sys2Proof.Machine.execWrmsr s
  | .rdtsc => Sys2Proof.Machine.execRdtsc s
  | .rdmsr => Sys2Proof.Machine.execRdmsr s
  | .cpuid => Sys2Proof.Machine.execCpuid s

end Sys2Proof.Machine
end

