-- ==== Sys2Proof/Machine/Step.lean ====
section
/-! DEFINITION. One step: fetch, decode, execute, advance the program counter (10_state R24; 30_encoding R104; 20_memory R92); and
placing an instruction where the step fetches. -/

namespace Sys2Proof.Machine

/-- `pc <- pc + length` after an instruction that completed (10_state R24); a stop is kept as it is (60_exceptions R395, R396). -/
def advanceOutcome (len : Nat) : Host.Outcome State Fault Refusal → Host.Outcome State Fault Refusal
  | .next s => .next (s.advance len)
  | .fault f => .fault f
  | .refused r => .refused r

/-- Run what the bytes stand for. -/
def runDecoded (d : Decoded) (s : State) : Host.Outcome State Fault Refusal :=
  match d with
  | .instr i => exec i s
  | .reservedHint => (hint s).outcome
  | .invalidForm => (undefinedOpcode s).outcome
  | .locked => (undefinedOpcode s).outcome

/-- One step of the machine: three outcomes, next, fault, refusal. -/
def step (s : State) : Host.Outcome State Fault Refusal :=
  match decode s.plat.codeSize s.fetchBytes with
  | .error e => Effect.outcome (decodeStop e s)
  | .ok (d, len) =>
    match lengthCheck len s with
    | .error stop => Effect.outcome (.error stop)
    | .ok _ => advanceOutcome len (runDecoded d s)

/-- The state with an instruction of spec/opcode_table.json stored where the step fetches, as a program of `maxLength` bytes there: the
load from outside that 20_memory R92 leaves to the launch (log 10). -/
def State.withFetchWord (s : State) (nbits w : Nat) : State :=
  { s with
    mem := s.mem.writeBytes s.fetchAddr (tableBytes nbits w)
    plat := { s.plat with codeBase := s.fetchAddr, codeLen := maxLength } }

end Sys2Proof.Machine
end

