-- ==== Sys2Proof/Safety.lean ====
section
/-! DEFINITION. The terms claims are stated in: when an instruction may execute normally, what its operands are, what it leaves
unchanged (its frame), which bytes an access covers, what a correctly rounded result is, the invariant of the machine, and what a launch
is. -/

namespace Sys2Proof.Machine

/-! ## When an instruction executes normally: conditions on the state and the operands alone -/

/-- None of the conditions of `MmxCheck` holds (60_exceptions R383). -/
def mmxReady (since : Since) (s : State) : Bool := present since s.plat.gen && !s.em && !s.ts && !s.x87Pending

/-- None of the conditions of `XmmCheck` holds (60_exceptions R384). -/
def xmmReady (s : State) : Bool := present .three s.plat.gen && !s.em && s.osfxsr && !s.ts

/-- None of the conditions FXSAVE and FXRSTOR check holds (48 R340; 60_exceptions R385). -/
def fxReady (s : State) : Bool := s.plat.fxsr && !s.em && !s.ts

/-- No flag of a set has its mask bit 0 (47 R288). -/
abbrev noneUnmasked (s : State) (f : FpFlags) : Prop := f &&& ~~~(mxMasks s.mxcsr) = 0#6

/-- A byte that an access reaches: admitted, no device, and for a store no byte of the program (20_memory R76, R78, R92). -/
def byteOpen (p : Platform) (acc : Access) (a : Addr) : Bool :=
  memAdmit p acc a && !inDevice p a && (acc == .read || !inCode p a)

/-- Every byte of an access is open. -/
def accessible (acc : Access) (s : State) (a : Addr) (n : Nat) : Bool := (addresses a n).all (byteOpen s.plat acc)

/-- A multiple of 16 (20_memory R75). -/
def aligned16 (a : Addr) : Bool := a.extractLsb' 0 4 == 0#4

/-- An r/m operand of `n` bytes that can be accessed. -/
def reachable (acc : Access) (n : Nat) (aligned : Bool) (s : State) : RM → Bool
  | .reg _ => true
  | .mem m => (!aligned || aligned16 (s.lin m)) && accessible acc s (s.lin m) n

/-! ## The value of a source operand (20_memory R73) -/

/-- The value of an r/m source: a register's through `f`, or `n` bytes of memory, little-endian. -/
def sourceValue (w n : Nat) (f : Reg → BitVec w) (s : State) : RM → BitVec w
  | .reg q => f q
  | .mem m => s.mem.readValue (s.lin m) w n

/-- mm/m64. -/
def srcMm (s : State) (rm : RM) : Qword := sourceValue 64 8 s.mm s rm
/-- mm/m32. -/
def srcMm32 (s : State) (rm : RM) : Dword := sourceValue 32 4 (fun q => (s.mm q).extractLsb' 0 32) s rm
/-- r/m32. -/
def srcGp (s : State) (rm : RM) : Dword := sourceValue 32 4 s.x s rm
/-- r32/m16. -/
def srcGp16 (s : State) (rm : RM) : Word := sourceValue 16 2 (fun q => (s.x q).extractLsb' 0 16) s rm
/-- xmm/m128. -/
def srcXm (s : State) (rm : RM) : Xword := sourceValue 128 16 s.xm s rm
/-- xmm/m64. -/
def srcXm64 (s : State) (rm : RM) : Qword := sourceValue 64 8 (fun q => (s.xm q).extractLsb' 0 64) s rm
/-- xmm/m32. -/
def srcXm32 (s : State) (rm : RM) : Dword := sourceValue 32 4 (fun q => (s.xm q).extractLsb' 0 32) s rm

/-! ## Frames: what an instruction leaves unchanged -/

/-- Every general register is unchanged. -/
def SameGpr (s t : State) : Prop := ∀ q, t.x q = s.x q
/-- Every coprocessor data register is unchanged. -/
def SameFpr (s t : State) : Prop := ∀ q, t.fp q = s.fp q
/-- Every XMM register is unchanged. -/
def SameXmm (s t : State) : Prop := ∀ q, t.xm q = s.xm q
/-- The x87 control, status and tag words are unchanged. -/
def SameX87 (s t : State) : Prop := t.cwr = s.cwr ∧ t.swr = s.swr ∧ t.twr = s.twr
/-- Every byte of memory is unchanged. -/
def SameMem (s t : State) : Prop := ∀ a, t.mem.read a = s.mem.read a
/-- Every byte of memory outside the listed addresses is unchanged. -/
def SameMemBut (s t : State) (as : List Addr) : Prop := ∀ a : Addr, a ∉ as → t.mem.read a.toNat = s.mem.read a.toNat
/-- The system state, the segment registers, the parameters and the program counter are unchanged. -/
def SameSystem (s t : State) : Prop :=
  t.pc = s.pc ∧ t.segs = s.segs ∧ t.x87Pending = s.x87Pending ∧ t.cr0 = s.cr0 ∧ t.cr4 = s.cr4 ∧ t.cpl = s.cpl ∧ t.plat = s.plat
/-- The time-stamp counter and the draw counter are unchanged. -/
def SameDraws (s t : State) : Prop := t.tscLast = s.tscLast ∧ t.draws = s.draws

/-- The MMX transition (10_state R30): TWR = 0000h, SWR.TOS = 0, the rest of SWR and CWR unchanged. -/
def MmxEntered (s t : State) : Prop :=
  t.twr = 0#16 ∧ tosOf t.swr = 0#3 ∧ t.swr &&& 0xC7FF#16 = s.swr &&& 0xC7FF#16 ∧ t.cwr = s.cwr

/-- Only MMX register `r` is written, with ones in bits 79:64 (10_state R31), and the MMX transition made. -/
def WritesMm (s t : State) (r : Reg) : Prop :=
  (∀ q, q ≠ r → t.fp q = s.fp q) ∧ (t.fp r).extractLsb' 64 16 = 0xFFFF#16 ∧ MmxEntered s t ∧ SameGpr s t ∧ SameXmm s t ∧
    t.mxcsr = s.mxcsr ∧ t.eflags = s.eflags ∧ SameMem s t ∧ SameSystem s t ∧ SameDraws s t

/-- Only general register `r` is written, and the MMX transition made. -/
def MmxWritesGpr (s t : State) (r : Reg) : Prop :=
  (∀ q, q ≠ r → t.x q = s.x q) ∧ SameFpr s t ∧ MmxEntered s t ∧ SameXmm s t ∧ t.mxcsr = s.mxcsr ∧ t.eflags = s.eflags ∧
    SameMem s t ∧ SameSystem s t ∧ SameDraws s t

/-- Only memory bytes at the listed addresses are written, and the MMX transition made. -/
def MmxWritesMem (s t : State) (as : List Addr) : Prop :=
  SameMemBut s t as ∧ SameGpr s t ∧ SameFpr s t ∧ MmxEntered s t ∧ SameXmm s t ∧ t.mxcsr = s.mxcsr ∧ t.eflags = s.eflags ∧
    SameSystem s t ∧ SameDraws s t

/-- Only XMM register `r`, and perhaps MXCSR, are written. -/
def WritesXmFlags (s t : State) (r : Reg) : Prop :=
  (∀ q, q ≠ r → t.xm q = s.xm q) ∧ SameGpr s t ∧ SameFpr s t ∧ SameX87 s t ∧ t.eflags = s.eflags ∧ SameMem s t ∧
    SameSystem s t ∧ t.tscLast = s.tscLast

/-- Only XMM register `r` is written. -/
def WritesXm (s t : State) (r : Reg) : Prop := WritesXmFlags s t r ∧ t.mxcsr = s.mxcsr ∧ t.draws = s.draws

/-- Only memory bytes at the listed addresses are written, with no MMX transition. -/
def XmmWritesMem (s t : State) (as : List Addr) : Prop :=
  SameMemBut s t as ∧ SameGpr s t ∧ SameFpr s t ∧ SameX87 s t ∧ SameXmm s t ∧ t.mxcsr = s.mxcsr ∧ t.eflags = s.eflags ∧
    SameSystem s t ∧ t.tscLast = s.tscLast

/-- Only general registers satisfying `w` may be written: the system instructions. -/
def WritesGprOnly (s t : State) (w : Reg → Prop) : Prop :=
  (∀ q, ¬w q → t.x q = s.x q) ∧ SameFpr s t ∧ SameX87 s t ∧ SameXmm s t ∧ t.mxcsr = s.mxcsr ∧ t.eflags = s.eflags ∧
    SameMem s t ∧ SameSystem s t

/-- Only EFLAGS, and perhaps MXCSR, are written. -/
def WritesEflags (s t : State) : Prop :=
  SameGpr s t ∧ SameFpr s t ∧ SameX87 s t ∧ SameXmm s t ∧ SameMem s t ∧ SameSystem s t ∧ SameDraws s t

/-- Only general register `r`, and perhaps MXCSR, are written. -/
def WritesGprFlags (s t : State) (r : Reg) : Prop :=
  (∀ q, q ≠ r → t.x q = s.x q) ∧ SameFpr s t ∧ SameX87 s t ∧ SameXmm s t ∧ t.eflags = s.eflags ∧ SameMem s t ∧
    SameSystem s t ∧ SameDraws s t

/-- Only MMX register `r`, and perhaps MXCSR, are written, and the MMX transition made. -/
def WritesMmFlags (s t : State) (r : Reg) : Prop :=
  (∀ q, q ≠ r → t.fp q = s.fp q) ∧ (t.fp r).extractLsb' 64 16 = 0xFFFF#16 ∧ MmxEntered s t ∧ SameGpr s t ∧ SameXmm s t ∧
    t.eflags = s.eflags ∧ SameMem s t ∧ SameSystem s t ∧ SameDraws s t

/-! ## Completion, with the result and the frame -/

/-- The instruction completes, writes only MMX register `r` (with the MMX transition), and its value satisfies `P`. -/
def MmxCompletes (i : Instr) (s : State) (r : Reg) (P : Qword → Prop) : Prop :=
  ∃ t, exec i s = .next t ∧ P (t.mm r) ∧ WritesMm s t r

/-- The instruction completes, writes only XMM register `r`, and its value satisfies `P`. -/
def XmmCompletes (i : Instr) (s : State) (r : Reg) (P : Xword → Prop) : Prop :=
  ∃ t, exec i s = .next t ∧ P (t.xm r) ∧ WritesXm s t r

/-- The numeric instruction completes, writes only XMM register `r` with `P` of its value, and ORs the flags `f` into MXCSR
(47 R288). -/
def NumericCompletes (i : Instr) (s : State) (r : Reg) (f : FpFlags) (P : Xword → Prop) : Prop :=
  ∃ t, exec i s = .next t ∧ P (t.xm r) ∧ t.mxcsr = s.mxcsr ||| f.setWidth 32 ∧ WritesXmFlags s t r ∧ t.draws = s.draws

/-- The `n` bytes from `a` up hold `v`, little-endian (20_memory R70). -/
def Holds {w : Nat} (s : State) (a : Addr) (n : Nat) (v : BitVec w) : Prop :=
  ∀ k, k < n → s.mem.read (a + BitVec.ofNat 32 k).toNat = v.extractLsb' (8 * k) 8

/-! ## Single-precision patterns by their bits (10_state R44) -/

/-- A NaN: the magnitude bits are above those of infinity. -/
abbrev NaNBits (v : Dword) : Prop := 0x7F800000 < (v &&& 0x7FFFFFFF#32).toNat
/-- An SNaN: a NaN with bit 22 clear. -/
abbrev SNaNBits (v : Dword) : Prop := NaNBits v ∧ v.getLsbD 22 = false
/-- An infinity. -/
abbrev InfBits (v : Dword) : Prop := (v &&& 0x7FFFFFFF#32).toNat = 0x7F800000
/-- A zero. -/
abbrev ZeroBits (v : Dword) : Prop := (v &&& 0x7FFFFFFF#32).toNat = 0
/-- A denormal: fraction bits only. -/
abbrev DenormalBits (v : Dword) : Prop := 0 < (v &&& 0x7FFFFFFF#32).toNat ∧ (v &&& 0x7FFFFFFF#32).toNat < 0x00800000
/-- A normal number. -/
abbrev NormalBits (v : Dword) : Prop := 0x00800000 ≤ (v &&& 0x7FFFFFFF#32).toNat ∧ (v &&& 0x7FFFFFFF#32).toNat < 0x7F800000

/-! ## Which checks an instruction makes first -/

/-- The frames of 40 R144 and 46 R271, and those instructions that state their own checks. -/
inductive Frame where
  /-- `MmxCheck` first (60_exceptions R383). -/
  | mmx (since : Since)
  /-- `XmmCheck` first (60_exceptions R384). -/
  | xmm
  /-- `XmmCheck`, then the #MF test (60_exceptions R384). -/
  | xmmToMmx
  /-- FXSAVE and FXRSTOR (48 R340, R341). -/
  | state
  /-- PREFETCHh and SFENCE (48 R356, R357). -/
  | hint
  /-- The system instructions (49). -/
  | system
  deriving DecidableEq, Repr

/-- The frame of each instruction (40 R144; 46 R271; 60_exceptions R383 to R385). -/
def frameOf : Instr → Frame
  | .punpcklbw _ _ => .mmx .base
  | .punpcklwd _ _ => .mmx .base
  | .punpckldq _ _ => .mmx .base
  | .packsswb _ _ => .mmx .base
  | .pcmpgtb _ _ => .mmx .base
  | .pcmpgtw _ _ => .mmx .base
  | .pcmpgtd _ _ => .mmx .base
  | .packuswb _ _ => .mmx .base
  | .punpckhbw _ _ => .mmx .base
  | .punpckhwd _ _ => .mmx .base
  | .punpckhdq _ _ => .mmx .base
  | .packssdw _ _ => .mmx .base
  | .movdLoad _ _ => .mmx .base
  | .movqLoad _ _ => .mmx .base
  | .pcmpeqb _ _ => .mmx .base
  | .pcmpeqw _ _ => .mmx .base
  | .pcmpeqd _ _ => .mmx .base
  | .movdStore _ _ => .mmx .base
  | .movqStore _ _ => .mmx .base
  | .psrlw _ _ => .mmx .base
  | .psrld _ _ => .mmx .base
  | .psrlq _ _ => .mmx .base
  | .pmullw _ _ => .mmx .base
  | .psubusb _ _ => .mmx .base
  | .psubusw _ _ => .mmx .base
  | .pand _ _ => .mmx .base
  | .paddusb _ _ => .mmx .base
  | .paddusw _ _ => .mmx .base
  | .pandn _ _ => .mmx .base
  | .psraw _ _ => .mmx .base
  | .psrad _ _ => .mmx .base
  | .pmulhw _ _ => .mmx .base
  | .psubsb _ _ => .mmx .base
  | .psubsw _ _ => .mmx .base
  | .por _ _ => .mmx .base
  | .paddsb _ _ => .mmx .base
  | .paddsw _ _ => .mmx .base
  | .pxor _ _ => .mmx .base
  | .psllw _ _ => .mmx .base
  | .pslld _ _ => .mmx .base
  | .psllq _ _ => .mmx .base
  | .pmaddwd _ _ => .mmx .base
  | .psubb _ _ => .mmx .base
  | .psubw _ _ => .mmx .base
  | .psubd _ _ => .mmx .base
  | .paddb _ _ => .mmx .base
  | .paddw _ _ => .mmx .base
  | .paddd _ _ => .mmx .base
  | .emms => .mmx .base
  | .psrlwImm _ _ => .mmx .base
  | .psrawImm _ _ => .mmx .base
  | .psllwImm _ _ => .mmx .base
  | .psrldImm _ _ => .mmx .base
  | .psradImm _ _ => .mmx .base
  | .pslldImm _ _ => .mmx .base
  | .psrlqImm _ _ => .mmx .base
  | .psllqImm _ _ => .mmx .base
  | .pshufw _ _ _ => .mmx .three
  | .pinsrw _ _ _ => .mmx .three
  | .pextrw _ _ _ => .mmx .three
  | .pmovmskb _ _ => .mmx .three
  | .pminub _ _ => .mmx .three
  | .pmaxub _ _ => .mmx .three
  | .pavgb _ _ => .mmx .three
  | .pavgw _ _ => .mmx .three
  | .pmulhuw _ _ => .mmx .three
  | .pminsw _ _ => .mmx .three
  | .pmaxsw _ _ => .mmx .three
  | .psadbw _ _ => .mmx .three
  | .movntq _ _ => .mmx .three
  | .maskmovq _ _ _ _ => .mmx .three
  | .movupsLoad _ _ => .xmm
  | .movupsStore _ _ => .xmm
  | .movssLoad _ _ => .xmm
  | .movssStore _ _ => .xmm
  | .movlpsLoad _ _ => .xmm
  | .movhlps _ _ => .xmm
  | .movlpsStore _ _ => .xmm
  | .unpcklps _ _ => .xmm
  | .unpckhps _ _ => .xmm
  | .movhpsLoad _ _ => .xmm
  | .movlhps _ _ => .xmm
  | .movhpsStore _ _ => .xmm
  | .prefetchnta _ => .hint
  | .prefetcht0 _ => .hint
  | .prefetcht1 _ => .hint
  | .prefetcht2 _ => .hint
  | .movapsLoad _ _ => .xmm
  | .movapsStore _ _ => .xmm
  | .cvtpi2ps _ _ => .xmmToMmx
  | .cvtsi2ss _ _ => .xmm
  | .movntps _ _ => .xmm
  | .cvttps2pi _ _ => .xmmToMmx
  | .cvttss2si _ _ => .xmm
  | .cvtps2pi _ _ => .xmmToMmx
  | .cvtss2si _ _ => .xmm
  | .ucomiss _ _ => .xmm
  | .comiss _ _ => .xmm
  | .movmskps _ _ => .xmm
  | .sqrtps _ _ => .xmm
  | .sqrtss _ _ => .xmm
  | .rsqrtps _ _ => .xmm
  | .rsqrtss _ _ => .xmm
  | .rcpps _ _ => .xmm
  | .rcpss _ _ => .xmm
  | .andps _ _ => .xmm
  | .andnps _ _ => .xmm
  | .orps _ _ => .xmm
  | .xorps _ _ => .xmm
  | .addps _ _ => .xmm
  | .addss _ _ => .xmm
  | .mulps _ _ => .xmm
  | .mulss _ _ => .xmm
  | .subps _ _ => .xmm
  | .subss _ _ => .xmm
  | .minps _ _ => .xmm
  | .minss _ _ => .xmm
  | .divps _ _ => .xmm
  | .divss _ _ => .xmm
  | .maxps _ _ => .xmm
  | .maxss _ _ => .xmm
  | .fxsave _ => .state
  | .fxrstor _ => .state
  | .ldmxcsr _ => .xmm
  | .stmxcsr _ => .xmm
  | .sfence => .hint
  | .cmpps _ _ _ => .xmm
  | .cmpss _ _ _ => .xmm
  | .shufps _ _ _ => .xmm
  | .wrmsr => .system
  | .rdtsc => .system
  | .rdmsr => .system
  | .cpuid => .system

/-- None of the conditions an instruction checks before its operand holds: those of its frame (60_exceptions R383 to R385). -/
def checksPass (i : Instr) (s : State) : Bool :=
  match frameOf i with
  | .mmx since => mmxReady since s
  | .xmm => xmmReady s
  | .xmmToMmx => xmmReady s && !s.x87Pending
  | .state => fxReady s
  | .hint => present .three s.plat.gen
  | .system => true

/-! ## What an instruction accesses (20_memory R73, R75) -/

/-- One access to memory: its operand, its kind, how many bytes, and whether the address must be a multiple of 16. -/
structure MemAccess where
  mem : Mem
  acc : Access
  bytes : Nat
  aligned : Bool
  deriving DecidableEq, Repr

/-- The access of an r/m operand: none where it is a register. -/
def rmAccess (acc : Access) (bytes : Nat) (aligned : Bool) : RM → Option MemAccess
  | .reg _ => none
  | .mem m => some ⟨m, acc, bytes, aligned⟩

/-- The table of 20_memory R73, with the alignment of R75: the access an instruction makes to its memory operand. MASKMOVQ, whose bytes
are chosen one by one (48 R350), stands for itself. -/
def memAccess : Instr → Option MemAccess
  | .punpcklbw _ rm => rmAccess .read 4 false rm
  | .punpcklwd _ rm => rmAccess .read 4 false rm
  | .punpckldq _ rm => rmAccess .read 4 false rm
  | .packsswb _ rm => rmAccess .read 8 false rm
  | .pcmpgtb _ rm => rmAccess .read 8 false rm
  | .pcmpgtw _ rm => rmAccess .read 8 false rm
  | .pcmpgtd _ rm => rmAccess .read 8 false rm
  | .packuswb _ rm => rmAccess .read 8 false rm
  | .punpckhbw _ rm => rmAccess .read 8 false rm
  | .punpckhwd _ rm => rmAccess .read 8 false rm
  | .punpckhdq _ rm => rmAccess .read 8 false rm
  | .packssdw _ rm => rmAccess .read 8 false rm
  | .movdLoad _ rm => rmAccess .read 4 false rm
  | .movqLoad _ rm => rmAccess .read 8 false rm
  | .pcmpeqb _ rm => rmAccess .read 8 false rm
  | .pcmpeqw _ rm => rmAccess .read 8 false rm
  | .pcmpeqd _ rm => rmAccess .read 8 false rm
  | .movdStore _ rm => rmAccess .write 4 false rm
  | .movqStore _ rm => rmAccess .write 8 false rm
  | .psrlw _ rm => rmAccess .read 8 false rm
  | .psrld _ rm => rmAccess .read 8 false rm
  | .psrlq _ rm => rmAccess .read 8 false rm
  | .pmullw _ rm => rmAccess .read 8 false rm
  | .psubusb _ rm => rmAccess .read 8 false rm
  | .psubusw _ rm => rmAccess .read 8 false rm
  | .pand _ rm => rmAccess .read 8 false rm
  | .paddusb _ rm => rmAccess .read 8 false rm
  | .paddusw _ rm => rmAccess .read 8 false rm
  | .pandn _ rm => rmAccess .read 8 false rm
  | .psraw _ rm => rmAccess .read 8 false rm
  | .psrad _ rm => rmAccess .read 8 false rm
  | .pmulhw _ rm => rmAccess .read 8 false rm
  | .psubsb _ rm => rmAccess .read 8 false rm
  | .psubsw _ rm => rmAccess .read 8 false rm
  | .por _ rm => rmAccess .read 8 false rm
  | .paddsb _ rm => rmAccess .read 8 false rm
  | .paddsw _ rm => rmAccess .read 8 false rm
  | .pxor _ rm => rmAccess .read 8 false rm
  | .psllw _ rm => rmAccess .read 8 false rm
  | .pslld _ rm => rmAccess .read 8 false rm
  | .psllq _ rm => rmAccess .read 8 false rm
  | .pmaddwd _ rm => rmAccess .read 8 false rm
  | .psubb _ rm => rmAccess .read 8 false rm
  | .psubw _ rm => rmAccess .read 8 false rm
  | .psubd _ rm => rmAccess .read 8 false rm
  | .paddb _ rm => rmAccess .read 8 false rm
  | .paddw _ rm => rmAccess .read 8 false rm
  | .paddd _ rm => rmAccess .read 8 false rm
  | .emms => none
  | .psrlwImm _ _ => none
  | .psrawImm _ _ => none
  | .psllwImm _ _ => none
  | .psrldImm _ _ => none
  | .psradImm _ _ => none
  | .pslldImm _ _ => none
  | .psrlqImm _ _ => none
  | .psllqImm _ _ => none
  | .pshufw _ rm _ => rmAccess .read 8 false rm
  | .pinsrw _ rm _ => rmAccess .read 2 false rm
  | .pextrw _ _ _ => none
  | .pmovmskb _ _ => none
  | .pminub _ rm => rmAccess .read 8 false rm
  | .pmaxub _ rm => rmAccess .read 8 false rm
  | .pavgb _ rm => rmAccess .read 8 false rm
  | .pavgw _ rm => rmAccess .read 8 false rm
  | .pmulhuw _ rm => rmAccess .read 8 false rm
  | .pminsw _ rm => rmAccess .read 8 false rm
  | .pmaxsw _ rm => rmAccess .read 8 false rm
  | .psadbw _ rm => rmAccess .read 8 false rm
  | .movntq _ m => some ⟨m, .write, 8, false⟩
  | .maskmovq _ _ _ _ => none
  | .movupsLoad _ rm => rmAccess .read 16 false rm
  | .movupsStore _ rm => rmAccess .write 16 false rm
  | .movssLoad _ rm => rmAccess .read 4 false rm
  | .movssStore _ rm => rmAccess .write 4 false rm
  | .movlpsLoad _ m => some ⟨m, .read, 8, false⟩
  | .movhlps _ _ => none
  | .movlpsStore _ m => some ⟨m, .write, 8, false⟩
  | .unpcklps _ rm => rmAccess .read 16 true rm
  | .unpckhps _ rm => rmAccess .read 16 true rm
  | .movhpsLoad _ m => some ⟨m, .read, 8, false⟩
  | .movlhps _ _ => none
  | .movhpsStore _ m => some ⟨m, .write, 8, false⟩
  | .prefetchnta _ => none
  | .prefetcht0 _ => none
  | .prefetcht1 _ => none
  | .prefetcht2 _ => none
  | .movapsLoad _ rm => rmAccess .read 16 true rm
  | .movapsStore _ rm => rmAccess .write 16 true rm
  | .cvtpi2ps _ rm => rmAccess .read 8 false rm
  | .cvtsi2ss _ rm => rmAccess .read 4 false rm
  | .movntps _ m => some ⟨m, .write, 16, true⟩
  | .cvttps2pi _ rm => rmAccess .read 8 false rm
  | .cvttss2si _ rm => rmAccess .read 4 false rm
  | .cvtps2pi _ rm => rmAccess .read 8 false rm
  | .cvtss2si _ rm => rmAccess .read 4 false rm
  | .ucomiss _ rm => rmAccess .read 4 false rm
  | .comiss _ rm => rmAccess .read 4 false rm
  | .movmskps _ _ => none
  | .sqrtps _ rm => rmAccess .read 16 true rm
  | .sqrtss _ rm => rmAccess .read 4 false rm
  | .rsqrtps _ rm => rmAccess .read 16 true rm
  | .rsqrtss _ rm => rmAccess .read 4 false rm
  | .rcpps _ rm => rmAccess .read 16 true rm
  | .rcpss _ rm => rmAccess .read 4 false rm
  | .andps _ rm => rmAccess .read 16 true rm
  | .andnps _ rm => rmAccess .read 16 true rm
  | .orps _ rm => rmAccess .read 16 true rm
  | .xorps _ rm => rmAccess .read 16 true rm
  | .addps _ rm => rmAccess .read 16 true rm
  | .addss _ rm => rmAccess .read 4 false rm
  | .mulps _ rm => rmAccess .read 16 true rm
  | .mulss _ rm => rmAccess .read 4 false rm
  | .subps _ rm => rmAccess .read 16 true rm
  | .subss _ rm => rmAccess .read 4 false rm
  | .minps _ rm => rmAccess .read 16 true rm
  | .minss _ rm => rmAccess .read 4 false rm
  | .divps _ rm => rmAccess .read 16 true rm
  | .divss _ rm => rmAccess .read 4 false rm
  | .maxps _ rm => rmAccess .read 16 true rm
  | .maxss _ rm => rmAccess .read 4 false rm
  | .fxsave m => some ⟨m, .write, 512, true⟩
  | .fxrstor m => some ⟨m, .read, 512, true⟩
  | .ldmxcsr m => some ⟨m, .read, 4, false⟩
  | .stmxcsr m => some ⟨m, .write, 4, false⟩
  | .sfence => none
  | .cmpps _ rm _ => rmAccess .read 16 true rm
  | .cmpss _ rm _ => rmAccess .read 4 false rm
  | .shufps _ rm _ => rmAccess .read 16 true rm
  | .wrmsr => none
  | .rdtsc => none
  | .rdmsr => none
  | .cpuid => none

/-! ## The prefix F3h (30_encoding R106, R116) -/

/-- What F3h before an instruction makes of it: the scalar instruction of the same opcode; of a scalar instruction itself, whose F3h may
be repeated; nothing of any other, before which F3h is reserved. -/
def withF3 : Instr → Option Instr
  | .movupsLoad r rm => some (.movssLoad r rm)
  | .movupsStore r rm => some (.movssStore r rm)
  | .cvtpi2ps r rm => some (.cvtsi2ss r rm)
  | .cvttps2pi r rm => some (.cvttss2si r rm)
  | .cvtps2pi r rm => some (.cvtss2si r rm)
  | .sqrtps r rm => some (.sqrtss r rm)
  | .rsqrtps r rm => some (.rsqrtss r rm)
  | .rcpps r rm => some (.rcpss r rm)
  | .addps r rm => some (.addss r rm)
  | .mulps r rm => some (.mulss r rm)
  | .subps r rm => some (.subss r rm)
  | .minps r rm => some (.minss r rm)
  | .divps r rm => some (.divss r rm)
  | .maxps r rm => some (.maxss r rm)
  | .cmpps r rm imm => some (.cmpss r rm imm)
  | .movssLoad r rm => some (.movssLoad r rm)
  | .movssStore r rm => some (.movssStore r rm)
  | .cvtsi2ss r rm => some (.cvtsi2ss r rm)
  | .cvttss2si r rm => some (.cvttss2si r rm)
  | .cvtss2si r rm => some (.cvtss2si r rm)
  | .sqrtss r rm => some (.sqrtss r rm)
  | .rsqrtss r rm => some (.rsqrtss r rm)
  | .rcpss r rm => some (.rcpss r rm)
  | .addss r rm => some (.addss r rm)
  | .mulss r rm => some (.mulss r rm)
  | .subss r rm => some (.subss r rm)
  | .minss r rm => some (.minss r rm)
  | .divss r rm => some (.divss r rm)
  | .maxss r rm => some (.maxss r rm)
  | .cmpss r rm imm => some (.cmpss r rm imm)
  | _ => none

/-! ## Correct rounding, from the words of 47 R282, R284 and R285 -/

/-- `val(v)` of a finite single (the table of 47 R282). -/
def fpVal (v : Dword) : ℚ :=
  let sign : ℚ := if v.getLsbD 31 then -1 else 1
  let exp : Nat := (v.extractLsb' 23 8).toNat
  let frac : ℚ := ((v.extractLsb' 0 23).toNat : ℚ)
  if exp = 0 then sign * frac * 2 ^ (-149 : ℤ) else sign * (2 ^ 23 + frac) * 2 ^ ((exp : ℤ) - 150)

/-- The real number an `Exact` without a rest stands for. -/
def Exact.value (x : Exact) : ℚ := (if x.neg then -1 else 1) * ((x.num : ℚ) / x.den) * 2 ^ x.exp

/-- `n` is `y` rounded to an integer in a mode: nearest with ties to even, down, up, toward zero (47 R284; 48 R321). -/
def RoundsToInt (rc : Rounding) (y : ℝ) (n : ℤ) : Prop :=
  match rc with
  | .nearest => 2 * |y - n| ≤ 1 ∧ (2 * |y - n| = 1 → Even n)
  | .down => n = ⌊y⌋
  | .up => n = ⌈y⌉
  | .zero => n = if 0 ≤ y then ⌊y⌋ else ⌈y⌉

/-- The overflow results of 47 R284. -/
def overflowTable (rc : Rounding) (neg : Bool) : Dword :=
  match rc, neg with
  | .nearest, false => 0x7F800000#32
  | .nearest, true => 0xFF800000#32
  | .down, false => 0x7F7FFFFF#32
  | .down, true => 0xFF800000#32
  | .up, false => 0x7F800000#32
  | .up, true => 0xFF7FFFFF#32
  | .zero, false => 0x7F7FFFFF#32
  | .zero, true => 0xFF7FFFFF#32

/-- `(res, post) = Underflow(x)` (47 R285). With UM = 0 no result is written; PE then says that x is no multiple of 2^-149, as vector V232
of 95_test_vectors has it (log 33). -/
def UnderflowsTo (mx : Dword) (x : ℝ) (res : Dword) (post : FpFlags) : Prop :=
  if mx.getLsbD 11 = false then
    ((∃ d : ℤ, x = d * 2 ^ (-149 : ℤ)) → post = flagUE) ∧ ((¬∃ d : ℤ, x = d * 2 ^ (-149 : ℤ)) → post = flagUE ||| flagPE)
  else if mx.getLsbD 15 then (x < 0 → res = 0x80000000#32) ∧ (0 < x → res = 0#32) ∧ post = flagUE ||| flagPE
  else
    ∃ d : ℤ, RoundsToInt (mxRC mx) (x * 2 ^ (149 : ℤ)) d ∧ ((fpVal res : ℚ) : ℝ) = d * 2 ^ (-149 : ℤ) ∧ ¬NaNBits res ∧ ¬InfBits res ∧
      (res.getLsbD 31 = true ↔ x < 0) ∧ (x = d * 2 ^ (-149 : ℤ) → post = noFlags) ∧
      (x ≠ d * 2 ^ (-149 : ℤ) → post = flagUE ||| flagPE)

/-- `(res, post) = Round(x)` for a real x other than 0 (47 R284): r = n 2^q is x rounded to a 24-bit significand n with unbounded exponent;
then overflow, `Underflow(x)`, or the encoding of r. -/
def RoundsTo (mx : Dword) (x : ℝ) (res : Dword) (post : FpFlags) : Prop :=
  ∃ q n : ℤ, 2 ^ (q + 23) ≤ |x| ∧ |x| < 2 ^ (q + 24) ∧ RoundsToInt (mxRC mx) (x * 2 ^ (-q)) n ∧
    (2 ^ (128 : ℤ) ≤ |(n : ℝ)| * 2 ^ q →
      (x < 0 → res = overflowTable (mxRC mx) true) ∧ (0 < x → res = overflowTable (mxRC mx) false) ∧ post = flagOE ||| flagPE) ∧
    (|(n : ℝ)| * 2 ^ q < 2 ^ (-126 : ℤ) → UnderflowsTo mx x res post) ∧
    (2 ^ (-126 : ℤ) ≤ |(n : ℝ)| * 2 ^ q → |(n : ℝ)| * 2 ^ q < 2 ^ (128 : ℤ) →
      NormalBits res ∧ ((fpVal res : ℚ) : ℝ) = n * 2 ^ q ∧ (x = n * 2 ^ q → post = noFlags) ∧ (x ≠ n * 2 ^ q → post = flagPE))

/-- The instructions that can signal a SIMD floating-point condition (60_exceptions R391). -/
def numeric : Instr → Bool
  | .addps _ _ => true
  | .addss _ _ => true
  | .subps _ _ => true
  | .subss _ _ => true
  | .mulps _ _ => true
  | .mulss _ _ => true
  | .divps _ _ => true
  | .divss _ _ => true
  | .sqrtps _ _ => true
  | .sqrtss _ _ => true
  | .maxps _ _ => true
  | .maxss _ _ => true
  | .minps _ _ => true
  | .minss _ _ => true
  | .cmpps _ _ _ => true
  | .cmpss _ _ _ => true
  | .comiss _ _ => true
  | .ucomiss _ _ => true
  | .cvtpi2ps _ _ => true
  | .cvtsi2ss _ _ => true
  | .cvtps2pi _ _ => true
  | .cvttps2pi _ _ => true
  | .cvtss2si _ _ => true
  | .cvttss2si _ _ => true
  | _ => false

/-! ## The whole machine -/

/-- The state a fault carries: the faulted state (60_exceptions R395). -/
def Fault.state : Fault → State
  | .ud s => s
  | .nm s => s
  | .gp s => s
  | .pf _ _ s => s
  | .mf s => s
  | .xm s => s

/-- The exception a fault is, with its vector and what it records (60_exceptions R380). -/
def Fault.exception : Fault → Exception
  | .ud _ => .ud
  | .nm _ => .nm
  | .gp _ => .gp
  | .pf addr code _ => .pf addr code
  | .mf _ => .mf
  | .xm _ => .xm

/-- The invariant of the machine: memory in its canonical form, the reserved bits of MXCSR 0 (10_state R42, R43), CPL the low two bits
of the CS selector (10_state R51). -/
def State.inv (s : State) : Bool :=
  s.mem.wf && (s.mxcsr &&& mxReserved == 0#32) && s.cpl == s.segs.cs.selector.extractLsb' 0 2

/-- CR0.PE, bit 0: protected mode (10_state R61, R62; the place of the bit: log 2). -/
def State.pe (s : State) : Bool := s.cr0.getLsbD 0
/-- CR0.AM, bit 18: alignment checks (70 R423; 20_memory R75 (d); the place of the bit: log 2). -/
def State.am (s : State) : Bool := s.cr0.getLsbD 18

/-- What 70 R423 fixes of a launch state, row by row, with the protected mode of 10_state R62; CPL and CR4.TSD, the parameters of the
launch, and everything R423 leaves arbitrary are free. -/
def launched (s : State) : Bool :=
  s.plat.gen == .pentiumIII && s.plat.codeSize == .c32 && s.pc == s.plat.codeBase && s.pe && !s.em && !s.ts && !s.am && s.osfxsr &&
    s.osxmmexcpt && !s.x87Pending && s.twr == 0xFFFF#16 && tosOf s.swr == 0#3 && s.mxcsr == 0x00001F80#32 &&
    s.cpl == s.segs.cs.selector.extractLsb' 0 2 && s.segs.cs.base == 0#32 && s.segs.ds.base == 0#32 && s.segs.ss.base == 0#32 &&
    s.segs.es.base == 0#32 && s.segs.fs.base == 0#32 && s.segs.gs.base == 0#32

end Sys2Proof.Machine
end

