-- ==== Sys2Proof/Certificates/Slice0/Obligations.lean ====
section
/-! DEFINITION. The statements for the provers, from the numbered rules of spec/. A completion statement says that `exec` answers a
next state, what that state holds (the result from the rule's own formula, element by element), and the frame (Safety.lean). -/

open Sys2Proof Sys2Proof.Machine

/-! ## Decoding and the step -/

/-- A step runs the decoded instruction, of at most 15 bytes, and moves the program counter past its bytes; a stop is kept as it is
(10_state R24; 30_encoding R104; 60_exceptions R395, R396). -/
def Obligations.StepRunsTheDecodedInstruction : Prop :=
  ∀ (s : State) (i : Instr) (len : Nat), decode s.plat.codeSize s.fetchBytes = .ok (.instr i, len) → len ≤ 15 →
    i.wf → step s =
      match exec i s with
      | .next t => .next { t with pc := t.pc + BitVec.ofNat 32 len }
      | .fault f => .fault f
      | .refused r => .refused r

/-- Byte strings the rules give as examples decode to the instructions the rules name. -/
def Obligations.WrittenBytesDecode : Prop :=
  decode .c32 [0x0F#8, 0x6E#8, 0xC8#8] = .ok (.instr (.movdLoad 1#3 (.reg 0#3)), 3) ∧
  decode .c32 [0x0F#8, 0x6F#8, 0x05#8, 0x00#8, 0x10#8, 0x00#8, 0x00#8] =
    .ok (.instr (.movqLoad 0#3 (.mem (.a32 none none none 0x1000#32))), 7) ∧
  decode .c32 [0x0F#8, 0x7F#8, 0x1B#8] = .ok (.instr (.movqStore 3#3 (.mem (.a32 none (some 3#3) none 0#32))), 3) ∧
  decode .c32 [0x0F#8, 0x71#8, 0xF0#8, 0x04#8] = .ok (.instr (.psllwImm 0#3 4#8), 4) ∧
  decode .c32 [0x0F#8, 0x77#8] = .ok (.instr .emms, 2) ∧
  decode .c32 [0x0F#8, 0xC5#8, 0xC1#8, 0x02#8] = .ok (.instr (.pextrw 0#3 1#3 2#8), 4) ∧
  decode .c32 [0xF3#8, 0x0F#8, 0x10#8, 0x03#8] = .ok (.instr (.movssLoad 0#3 (.mem (.a32 none (some 3#3) none 0#32))), 4) ∧
  decode .c32 [0x0F#8, 0x12#8, 0xCA#8] = .ok (.instr (.movhlps 1#3 2#3), 3) ∧
  decode .c32 [0x0F#8, 0xC2#8, 0xC1#8, 0x01#8] = .ok (.instr (.cmpps 0#3 (.reg 1#3) 1#8), 4) ∧
  decode .c32 [0x0F#8, 0xAE#8, 0xF8#8] = .ok (.instr .sfence, 3) ∧
  decode .c32 [0x0F#8, 0x31#8] = .ok (.instr .rdtsc, 2)

/-- DECODE AND ENCODE AGREE: the bytes of every well-formed instruction, whatever follows them, decode to it with their length, in every
form of its memory operand: no displacement, a sign-extended byte or a full one, with or without a SIB byte that is not needed (30_encoding
R100 to R112). The form that `encode` takes is `canonicalForm`. -/
def Obligations.DecodeOfEncodeIsTheInstruction : Prop :=
  ∀ (form : MemForm) (cs : CodeSize) (i : Instr) (rest : List Byte), i.wf →
    decode cs (encodeAs form cs i ++ rest) = .ok (.instr i, (encodeAs form cs i).length)

/-- LOCK before any instruction is the #UD form, F2h is reserved before any, and 66h before all but the system instructions, before
which it has no effect (30_encoding R106; that it has none is one of R106's two choices, log 13); F3h makes the scalar instruction of the
same opcode, and is reserved before an opcode that has none (R106, R116; that it may be repeated, and is reserved before a system
instruction too: log 13); and a step over a locked or an invalid form of at most 15 bytes raises #UD with the state unchanged
(30_encoding R106, R119; 60_exceptions R393 step 1). -/
def Obligations.PrefixesBeforeInstructions : Prop :=
  (∀ (cs : CodeSize) (i : Instr) (rest : List Byte), i.wf →
     decode cs (0xF0#8 :: (encode cs i ++ rest)) = .ok (.locked, (encode cs i).length + 1) ∧
     decode cs (0xF2#8 :: (encode cs i ++ rest)) = .error .reservedPrefix ∧
     (frameOf i ≠ .system → decode cs (0x66#8 :: (encode cs i ++ rest)) = .error .reservedPrefix) ∧
     (frameOf i = .system → decode cs (0x66#8 :: (encode cs i ++ rest)) = .ok (.instr i, (encode cs i).length + 1)) ∧
     decode cs (0xF3#8 :: (encode cs i ++ rest)) =
       match withF3 i with
       | some j => .ok (.instr j, (encode cs i).length + 1)
       | none => .error .reservedPrefix) ∧
  (∀ (s : State) (len : Nat), len ≤ 15 →
     (decode s.plat.codeSize s.fetchBytes = .ok (.locked, len) → step s = .fault (.ud s)) ∧
     (decode s.plat.codeSize s.fetchBytes = .ok (.invalidForm, len) → step s = .fault (.ud s)))

/-- What a step fetches, and what it does with bytes that are no instruction it can run. The bytes fetched are those of the program from
the program counter on, and fetching the whole rest of the program would decode the same. Outside the program, or where the program ends
inside the instruction, the step refuses (20_memory R92; past FFFFFFFFh: 10_state R24); bytes that are no instruction, after any number of
prefixes, and a reserved prefix are refused, each by its name (30_encoding R104, R106, R120); whatever else decodes with a length above 15
raises #GP(0) with the state unchanged (R104; log 12), as an instruction that redundant segment overrides make too long. -/
def Obligations.StepStopsOnItsBytes : Prop :=
  (∀ s : State,
     s.fetchBytes.length = s.fetchCount ∧ s.fetchCount ≤ s.programLeft ∧
     (∀ k < s.fetchCount, inCode s.plat (s.fetchAddr + BitVec.ofNat 32 k) ∧
       s.fetchBytes[k]? = some (s.mem.read (s.fetchAddr + BitVec.ofNat 32 k).toNat)) ∧
     decode s.plat.codeSize s.fetchBytes = decode s.plat.codeSize (s.mem.readBytes s.fetchAddr s.programLeft)) ∧
  (∀ s : State,
     (inCode s.plat s.fetchAddr = false → step s = .refused .fetchOutsideCode) ∧
     (decode s.plat.codeSize s.fetchBytes = .error .outOfBytes →
       step s = .refused (if s.fetchAddr.toNat + s.programLeft = 2 ^ 32 then .fetchPastTop else .fetchOutsideCode)) ∧
     (decode s.plat.codeSize s.fetchBytes = .error .notInstruction → step s = .refused .notInstruction) ∧
     (decode s.plat.codeSize s.fetchBytes = .error .reservedPrefix → step s = .refused .reservedPrefix) ∧
     (∀ d len, decode s.plat.codeSize s.fetchBytes = .ok (d, len) → 15 < len → step s = .fault (.gp s))) ∧
  (∀ (cs : CodeSize) (pre : List Byte) (b : Byte) (rest : List Byte),
     (∀ x ∈ pre, x ∈ [0x26#8, 0x2E#8, 0x36#8, 0x3E#8, 0x64#8, 0x65#8, 0x67#8, 0xF3#8]) →
     b ∉ [0x26#8, 0x2E#8, 0x36#8, 0x3E#8, 0x64#8, 0x65#8, 0x67#8, 0xF3#8, 0x66#8, 0xF2#8, 0xF0#8, 0x0F#8] →
     decode cs (pre ++ b :: rest) = .error .notInstruction) ∧
  (∀ (s : State) (form : MemForm) (i : Instr) (ovr : List Byte), i.wf →
     (∀ b ∈ ovr, b ∈ [0x26#8, 0x2E#8, 0x36#8, 0x3E#8, 0x64#8, 0x65#8]) →
     15 < (ovr ++ encodeAs form s.plat.codeSize i).length → ovr ++ encodeAs form s.plat.codeSize i <+: s.fetchBytes →
     step s = .fault (.gp s))

/-- Where a memory operand is: base, scaled index and displacement modulo 2^32, or base part and displacement modulo 2^16 and
zero-extended; the segment an override names, else SS where the base register is ESP or EBP (BP in 16-bit forms), else DS; the linear
address its base plus that, modulo 2^32; and the address of byte i of MASKMOVQ (20_memory R74; 30_encoding R108 to R111; 48 R350). -/
def Obligations.AddressesOfMemoryOperands : Prop :=
  ∀ s : State,
    let low (r : Reg) : Nat := (s.x r).toNat % 2 ^ 16
    let base (g : Seg) : Nat :=
      (match g with
       | .es => s.segs.es.base
       | .cs => s.segs.cs.base
       | .ss => s.segs.ss.base
       | .ds => s.segs.ds.base
       | .fs => s.segs.fs.base
       | .gs => s.segs.gs.base).toNat
    (∀ o b ix (d : BitVec 32), (s.ea (.a32 o b ix d)).toNat =
       ((match b with
         | none => 0
         | some q => (s.x q).toNat) +
        (match ix with
         | none => 0
         | some (q, scale) => (s.x q).toNat * 2 ^ scale.toNat) + d.toNat) % 2 ^ 32) ∧
    (∀ o b (d : BitVec 16), (s.ea (.a16 o b d)).toNat =
       ((match b with
         | none => 0
         | some .bxSi => low 3#3 + low 6#3
         | some .bxDi => low 3#3 + low 7#3
         | some .bpSi => low 5#3 + low 6#3
         | some .bpDi => low 5#3 + low 7#3
         | some .si => low 6#3
         | some .di => low 7#3
         | some .bp => low 5#3
         | some .bx => low 3#3) + d.toNat) % 2 ^ 16) ∧
    (∀ b ix d, memSeg (.a32 none b ix d) = if b = some 4#3 ∨ b = some 5#3 then .ss else .ds) ∧
    (∀ b d, memSeg (.a16 none b d) = if b = some .bpSi ∨ b = some .bpDi ∨ b = some .bp then .ss else .ds) ∧
    (∀ g b ix d, memSeg (.a32 (some g) b ix d) = g) ∧ (∀ g b d, memSeg (.a16 (some g) b d) = g) ∧
    (∀ m, (s.lin m).toNat = (base (memSeg m) + (s.ea m).toNat) % 2 ^ 32) ∧
    (∀ ovr, ∀ i < 8,
       (s.maskByteAddr ovr .a32 i).toNat = (base (ovr.getD .ds) + (s.x 7#3).toNat + i) % 2 ^ 32 ∧
       (s.maskByteAddr ovr .a16 i).toNat = (base (ovr.getD .ds) + (low 7#3 + i) % 2 ^ 16) % 2 ^ 32)

/-! ## The whole machine -/

/-- The invariant holds after reset. A launch has every row that 70 R423 fixes, whatever the state is from which the rest is taken; it
keeps all that R423 leaves arbitrary; it has the invariant where its memory is in canonical form; and every state with those rows is a
launch (10_state R62; the places of PE and AM in CR0: log 2). -/
def Obligations.InvariantHoldsAtReset : Prop :=
  State.reset.inv = true ∧
  (∀ (any : State) (cpl : BitVec 2) (tsd : Bool) (codeBase : Addr),
     let s := State.launch any cpl tsd codeBase
     launched s ∧ s.cpl = cpl ∧ s.tsd = tsd ∧ s.plat.codeBase = codeBase ∧ (any.mem.wf → s.inv) ∧
       SameGpr any s ∧ s.eflags = any.eflags ∧ SameFpr any s ∧ SameXmm any s ∧ s.cwr = any.cwr ∧ s.mem = any.mem ∧
       SameDraws any s ∧ s.plat.regions = any.plat.regions ∧ s.plat.msrs = any.plat.msrs ∧ s.plat.codeLen = any.plat.codeLen) ∧
  (∀ s : State, launched s → State.launch s s.cpl s.tsd s.plat.codeBase = s)

/-- EVERY STEP KEEPS THE INVARIANT: memory stays in its canonical form, the reserved bits 31:16 and 6 of MXCSR stay 0 (10_state R43), and
CPL stays the low two bits of the CS selector (R51). -/
def Obligations.StepKeepsTheInvariant : Prop :=
  ∀ s t : State, s.inv → step s = .next t → t.inv

/-- EVERY STEP KEEPS THE PROGRAM: no byte of the code range changes, from whatever state (20_memory R92). -/
def Obligations.StepKeepsTheProgramBytes : Prop :=
  ∀ s t : State, step s = .next t →
    ∀ a : Addr, inCode s.plat a → t.mem.read a.toNat = s.mem.read a.toNat

/-- Every step that completes falls through: the pc moves on by the length that the decoder gave the bytes at the pc, 1 to 15
(10_state R24; 30_encoding R104). -/
def Obligations.StepFallsThrough : Prop :=
  ∀ s t : State, step s = .next t →
    ∃ (d : Decoded) (len : Nat), decode s.plat.codeSize s.fetchBytes = .ok (d, len) ∧ 1 ≤ len ∧ len ≤ 15 ∧
      t.pc = s.pc + BitVec.ofNat 32 len

/-- No instruction changes CR0, CR4, CPL, a segment register, the pending x87 exception, the parameters, or the program counter by
itself; EFLAGS is written by COMISS and UCOMISS only (10_state R23, R25, R50, R51; 60_exceptions R400). That FXRSTOR, which loads CWR and
SWR, leaves the pending x87 exception as it is: the model's choice (log 22). -/
def Obligations.SystemStateAndEflagsAreKept : Prop :=
  (∀ (i : Instr) (s t : State), exec i s = .next t → SameSystem s t) ∧
  (∀ (i : Instr) (s t : State), exec i s = .next t → t.eflags ≠ s.eflags →
     ∃ r rm, i = .comiss r rm ∨ i = .ucomiss r rm)

/-- Only LDMXCSR and FXRSTOR clear a bit of MXCSR or set one of its control bits: every other instruction ORs exception flags into
it, and the flags are sticky (10_state R42, R45). -/
def Obligations.MxcsrFlagsAreSticky : Prop :=
  ∀ (i : Instr) (s t : State), exec i s = .next t → (∀ m, i ≠ .ldmxcsr m) → (∀ m, i ≠ .fxrstor m) →
    ∃ f : FpFlags, t.mxcsr = s.mxcsr ||| f.setWidth 32

/-- An MMX instruction other than EMMS leaves TWR = 0000h and SWR.TOS = 0, CWR and the rest of SWR unchanged, also where it only reads
MMX registers, as do the three conversions with an MMX operand. Every other instruction but FXRSTOR changes no x87 or MMX state
(10_state R30, R41). -/
def Obligations.MmxTransitionByFrame : Prop :=
  ∀ (i : Instr) (s t : State), exec i s = .next t →
    ((∃ since, frameOf i = .mmx since) → i ≠ .emms → MmxEntered s t) ∧ (frameOf i = .xmmToMmx → MmxEntered s t) ∧
    (frameOf i = .xmm ∨ frameOf i = .hint ∨ frameOf i = .system ∨ (∃ m, i = .fxsave m) → SameX87 s t ∧ SameFpr s t)

/-- Every fault is precise, of an instruction and of a step: the faulted state is the state before the instruction, but for the MXCSR
exception flags that a numeric instruction set (60_exceptions R391), one of them unmasked, which is reported as #XM, or as #UD where
CR4.OSXMMEXCPT = 0 (60_exceptions R390, R396). -/
def Obligations.FaultsArePrecise : Prop :=
  let precise (s : State) (signals : Prop) (f : Fault) : Prop :=
    f.state = s ∨
      (signals ∧ ∃ g : FpFlags, g &&& ~~~(mxMasks s.mxcsr) ≠ 0#6 ∧
        if s.osxmmexcpt then f = .xm (s.orMxcsr g) else f = .ud (s.orMxcsr g))
  (∀ (i : Instr) (s : State) (f : Fault), exec i s = .fault f → precise s (numeric i) f) ∧
  (∀ (s : State) (f : Fault), step s = .fault f →
     precise s (∃ i len, decode s.plat.codeSize s.fetchBytes = .ok (.instr i, len) ∧ numeric i) f)

/-! ## Reset -/

/-- What reset leaves, as 10_state R60 states it: the TSC 0, the six masks 1, RC 00, FZ 0, the reserved bits of MXCSR 0, and
MXCSR = 00001F80h. -/
def Obligations.ResetLeavesTheStatedValues : Prop :=
  State.reset.tscLast = 0#64 ∧ mxMasks State.reset.mxcsr = 63#6 ∧ State.reset.mxcsr.extractLsb' 13 2 = 0#2 ∧
    State.reset.mxcsr.getLsbD 15 = false ∧ State.reset.mxcsr &&& 0xFFFF0040#32 = 0#32 ∧ State.reset.mxcsr = 0x00001F80#32

/-- The table of 10_state R61. That EAX is 0 rather than a self-test result is the model's choice (log 3), and so is the signature in
EDX (log 4). -/
def Obligations.ResetTable : Prop :=
  State.reset.pc = 0x0000FFF0#32 ∧ State.reset.segs.cs.selector = 0xF000#16 ∧ State.reset.segs.cs.base = 0xFFFF0000#32 ∧
    State.reset.fetchAddr = 0xFFFFFFF0#32 ∧ State.reset.eflags = 0x00000002#32 ∧ State.reset.cr0 = 0x60000010#32 ∧
    State.reset.cr4 = 0#32 ∧ State.reset.cpl = 0#2 ∧ (∀ q, State.reset.fp q = 0#80) ∧ State.reset.cwr = 0x0040#16 ∧
    State.reset.swr = 0#16 ∧ State.reset.twr = 0x5555#16 ∧ (∀ q, State.reset.xm q = 0#128) ∧
    State.reset.x 2#3 = State.reset.plat.signature ∧ ∀ q, q ≠ 2#3 → State.reset.x q = 0#32

/-! ## Checks and exceptions -/

/-- `MmxCheck`, for every instruction of the MMX frame and EMMS, in its order (60_exceptions R383, R385, R393). -/
def Obligations.MmxChecksInOrder : Prop :=
  ∀ (i : Instr) (since : Since) (s : State), frameOf i = .mmx since →
    (present since s.plat.gen = false → exec i s = .fault (.ud s)) ∧
    (s.em → exec i s = .fault (.ud s)) ∧
    (present since s.plat.gen → s.em = false → s.ts → exec i s = .fault (.nm s)) ∧
    (present since s.plat.gen → s.em = false → s.ts = false → s.x87Pending → exec i s = .fault (.mf s))

/-- `XmmCheck`, for every instruction of the XMM frame and the three conversions with an MMX operand, which add the #MF test; FXSAVE and
FXRSTOR: #UD where CPUID bit FXSR is 0 or CR0.EM = 1, then #NM where CR0.TS = 1; PREFETCHh and SFENCE: #UD on the earlier generations,
nothing else (60_exceptions R384, R385, R393; 48 R340; that the hints check the generation at all: log 31). -/
def Obligations.XmmStateAndHintChecks : Prop :=
  (∀ (i : Instr) (s : State), frameOf i = .xmm ∨ frameOf i = .xmmToMmx →
     (s.plat.gen ≠ .pentiumIII → exec i s = .fault (.ud s)) ∧
     (s.em → exec i s = .fault (.ud s)) ∧
     (s.osfxsr = false → exec i s = .fault (.ud s)) ∧
     (s.plat.gen = .pentiumIII → s.em = false → s.osfxsr → s.ts → exec i s = .fault (.nm s)) ∧
     (frameOf i = .xmmToMmx → xmmReady s → s.x87Pending → exec i s = .fault (.mf s))) ∧
  (∀ (i : Instr) (s : State),
     (frameOf i = .state →
       (s.plat.fxsr = false → exec i s = .fault (.ud s)) ∧ (s.em → exec i s = .fault (.ud s)) ∧
       (s.plat.fxsr → s.em = false → s.ts → exec i s = .fault (.nm s))) ∧
     (frameOf i = .hint → s.plat.gen ≠ .pentiumIII → exec i s = .fault (.ud s)))

/-- A 128-bit memory operand that is not 16-byte aligned raises #GP(0) and changes nothing, in every instruction of the first three rows
of 60_exceptions R386, and so does a misaligned area of FXSAVE and FXRSTOR (20_memory R75; 48 R340, R341). -/
def Obligations.MisalignedOperandRaisesGp : Prop :=
  (∀ (s : State) (r : Reg) (m : Mem) (imm : Byte), xmmReady s → aligned16 (s.lin m) = false →
     ∀ i ∈ [Instr.movapsLoad r (.mem m), .movapsStore r (.mem m), .movntps r m, .addps r (.mem m), .subps r (.mem m),
         .mulps r (.mem m), .divps r (.mem m), .sqrtps r (.mem m), .maxps r (.mem m), .minps r (.mem m), .cmpps r (.mem m) imm,
         .andps r (.mem m), .andnps r (.mem m), .orps r (.mem m), .xorps r (.mem m), .shufps r (.mem m) imm,
         .unpckhps r (.mem m), .unpcklps r (.mem m), .rcpps r (.mem m), .rsqrtps r (.mem m)],
       exec i s = .fault (.gp s)) ∧
  (∀ (s : State) (m : Mem), fxReady s → aligned16 (s.lin m) = false →
     exec (.fxsave m) s = .fault (.gp s) ∧ exec (.fxrstor m) s = .fault (.gp s))

/-- The first byte, lowest first, that `MemAdmit` shuts out raises #PF with its address, and the state is unchanged: for every instruction
with a memory operand, of 2, 4, 8, 16 or 512 bytes (the table of 20_memory R73), and for the selected bytes of MASKMOVQ (20_memory R76;
48 R350). The error code says whether something is there, whether the access is a write and whether CPL is 3 (60_exceptions R380; the
places of the bits: log 29). Where a lower byte is a device's, or a store's lower byte the program's, that #PF comes before the refusal is
the model's choice (log 24). -/
def Obligations.FirstInadmissibleByteRaisesPf : Prop :=
  let faultsAt (i : Instr) (s : State) (acc : Access) (a : Addr) : Prop :=
    ∃ code : Dword, exec i s = .fault (.pf a code s) ∧ code.toNat < 8 ∧
      (code.getLsbD 0 = false ↔ ∃ g ∈ s.plat.regions, g.holds a ∧ g.kind = .absent) ∧
      (code.getLsbD 1 = true ↔ acc = .write) ∧ (code.getLsbD 2 = true ↔ s.cpl = 3#2)
  (∀ (i : Instr) (s : State) (x : MemAccess) (k : Nat), memAccess i = some x → checksPass i s →
     (x.aligned → aligned16 (s.lin x.mem)) → k < x.bytes →
     (∀ j < k, memAdmit s.plat x.acc (s.lin x.mem + BitVec.ofNat 32 j)) →
     memAdmit s.plat x.acc (s.lin x.mem + BitVec.ofNat 32 k) = false →
     faultsAt i s x.acc (s.lin x.mem + BitVec.ofNat 32 k)) ∧
  (∀ (s : State) (r q : Reg) (ovr : Option Seg) (size : AddrSize) (k : Nat), mmxReady .three s → k < 8 →
     (elem 8 (s.mm q) k).getLsbD 7 →
     (∀ j < k, (elem 8 (s.mm q) j).getLsbD 7 → memAdmit s.plat .write (s.maskByteAddr ovr size j)) →
     memAdmit s.plat .write (s.maskByteAddr ovr size k) = false →
     faultsAt (.maskmovq r q ovr size) s .write (s.maskByteAddr ovr size k))

/-- The two refusals of an access, where `MemAdmit` holds of all its bytes (their order after it: log 24): the lowest byte in a device range
is refused (20_memory R78), and, of a store with no such byte, the lowest byte in the program (20_memory R92; log 25); for every
instruction with a memory operand, and for the selected bytes of MASKMOVQ. -/
def Obligations.AccessesTheModelRefuses : Prop :=
  (∀ (i : Instr) (s : State) (x : MemAccess) (k : Nat), memAccess i = some x → checksPass i s →
     (x.aligned → aligned16 (s.lin x.mem)) → k < x.bytes →
     (∀ j < x.bytes, memAdmit s.plat x.acc (s.lin x.mem + BitVec.ofNat 32 j)) →
     ((∀ j < k, inDevice s.plat (s.lin x.mem + BitVec.ofNat 32 j) = false) → inDevice s.plat (s.lin x.mem + BitVec.ofNat 32 k) →
       exec i s = .refused (.deviceAccess (s.lin x.mem + BitVec.ofNat 32 k))) ∧
     (x.acc = .write → (∀ j < x.bytes, inDevice s.plat (s.lin x.mem + BitVec.ofNat 32 j) = false) →
       (∀ j < k, inCode s.plat (s.lin x.mem + BitVec.ofNat 32 j) = false) → inCode s.plat (s.lin x.mem + BitVec.ofNat 32 k) →
       exec i s = .refused (.storeToCode (s.lin x.mem + BitVec.ofNat 32 k)))) ∧
  (∀ (s : State) (r q : Reg) (ovr : Option Seg) (size : AddrSize) (k : Nat),
     let selected (j : Nat) : Prop := j < 8 ∧ (elem 8 (s.mm q) j).getLsbD 7
     let a (j : Nat) : Addr := s.maskByteAddr ovr size j
     mmxReady .three s → selected k → (∀ j, selected j → memAdmit s.plat .write (a j)) →
     ((∀ j < k, selected j → inDevice s.plat (a j) = false) → inDevice s.plat (a k) →
       exec (.maskmovq r q ovr size) s = .refused (.deviceAccess (a k))) ∧
     ((∀ j, selected j → inDevice s.plat (a j) = false) → (∀ j < k, selected j → inCode s.plat (a j) = false) →
       inCode s.plat (a k) → exec (.maskmovq r q ovr size) s = .refused (.storeToCode (a k))))

/-- An unmasked condition stops the whole instruction: the flags that were evaluated are set, no register is written, and the
exception is #XM, or #UD where CR4.OSXMMEXCPT = 0; the post-computation flags are not evaluated when a pre-computation flag is
unmasked (47 R288; 60_exceptions R390). Stated of every numeric instruction of 60_exceptions R391. -/
def Obligations.UnmaskedConditionRaises : Prop :=
  ∀ (s : State) (r : Reg) (rm : RM) (imm : Byte), xmmReady s →
    let fault (u : State) : Host.Outcome State Fault Refusal := if s.osxmmexcpt then .fault (.xm u) else .fault (.ud u)
    let stops (i : Instr) (pre post : FpFlags) : Prop :=
      (pre &&& ~~~(mxMasks s.mxcsr) ≠ 0#6 → exec i s = fault { s with mxcsr := s.mxcsr ||| pre.setWidth 32 }) ∧
      (pre &&& ~~~(mxMasks s.mxcsr) = 0#6 → post &&& ~~~(mxMasks s.mxcsr) ≠ 0#6 →
        exec i s = fault { s with mxcsr := s.mxcsr ||| pre.setWidth 32 ||| post.setWidth 32 })
    let packedStops (i : Instr) (f : Nat → Dword → Dword → Signalled Dword) : Prop :=
      let e (k : Nat) := f k (elem 32 (s.xm r) k) (elem 32 (srcXm s rm) k)
      stops i ((e 0).pre ||| (e 1).pre ||| (e 2).pre ||| (e 3).pre) ((e 0).post ||| (e 1).post ||| (e 2).post ||| (e 3).post)
    let scalarStops (i : Instr) (f : Dword → Dword → Signalled Dword) : Prop :=
      let e := f (elem 32 (s.xm r) 0) (srcXm32 s rm)
      stops i e.pre e.post
    let compares (i : Instr) (invalid : Dword → Dword → Prop) : Prop :=
      let a := elem 32 (s.xm r) 0
      let b := srcXm32 s rm
      (invalid a b → stops i flagIE noFlags) ∧ (¬NaNBits a → ¬NaNBits b → DenormalBits a ∨ DenormalBits b → stops i flagDE noFlags)
    let pairStops (i : Instr) (f : Nat → Signalled Dword) : Prop := stops i ((f 0).pre ||| (f 1).pre) ((f 0).post ||| (f 1).post)
    (reachable .read 16 true s rm →
      packedStops (.addps r rm) (fun _ => fpAdd s.mxcsr) ∧ packedStops (.subps r rm) (fun _ => fpSub s.mxcsr) ∧
      packedStops (.mulps r rm) (fun _ => fpMul s.mxcsr) ∧
      packedStops (.divps r rm) (fun k => fpDiv (Config.divideDenormalDE s.draws k) s.mxcsr) ∧
      packedStops (.sqrtps r rm) (fun _ _ => fpSqrt s.mxcsr) ∧ packedStops (.maxps r rm) (fun _ => fpMax) ∧
      packedStops (.minps r rm) (fun _ => fpMin) ∧ (imm.toNat ≤ 7 → packedStops (.cmpps r rm imm) (fun _ => fpCmp (imm.setWidth 3)))) ∧
    (reachable .read 4 false s rm →
      scalarStops (.addss r rm) (fpAdd s.mxcsr) ∧ scalarStops (.subss r rm) (fpSub s.mxcsr) ∧
      scalarStops (.mulss r rm) (fpMul s.mxcsr) ∧
      scalarStops (.divss r rm) (fpDiv (Config.divideDenormalDE s.draws 0) s.mxcsr) ∧
      scalarStops (.sqrtss r rm) (fun _ => fpSqrt s.mxcsr) ∧ scalarStops (.maxss r rm) fpMax ∧ scalarStops (.minss r rm) fpMin ∧
      (imm.toNat ≤ 7 → scalarStops (.cmpss r rm imm) (fpCmp (imm.setWidth 3))) ∧
      compares (.comiss r rm) (fun a b => NaNBits a ∨ NaNBits b) ∧ compares (.ucomiss r rm) (fun a b => SNaNBits a ∨ SNaNBits b) ∧
      stops (.cvtsi2ss r rm) noFlags (intToFp s.mxcsr (srcGp s rm)).post ∧
      scalarStops (.cvtss2si r rm) (fun _ => fpToInt (mxRC s.mxcsr)) ∧ scalarStops (.cvttss2si r rm) (fun _ => fpToInt .zero)) ∧
    (s.x87Pending = false → reachable .read 8 false s rm →
      pairStops (.cvtpi2ps r rm) (fun k => intToFp s.mxcsr (elem 32 (srcMm s rm) k)) ∧
      pairStops (.cvtps2pi r rm) (fun k => fpToInt (mxRC s.mxcsr) (elem 32 (srcXm64 s rm) k)) ∧
      pairStops (.cvttps2pi r rm) (fun k => fpToInt .zero (elem 32 (srcXm64 s rm) k)))

/-! ## MMX data transfer -/

/-- MOVD and MOVQ into a register of either kind (40 R140 to R143). -/
def Obligations.MmxMovesToRegisters : Prop :=
  (∀ (s : State) (r : Reg) (rm : RM), mmxReady .base s →
     (reachable .read 4 false s rm →
       MmxCompletes (.movdLoad r rm) s r fun v => v.extractLsb' 0 32 = srcGp s rm ∧ v.extractLsb' 32 32 = 0#32) ∧
     (reachable .read 8 false s rm → MmxCompletes (.movqLoad r rm) s r fun v => v = srcMm s rm)) ∧
  (∀ (s : State) (r q : Reg), mmxReady .base s →
     (∃ t, exec (.movdStore r (.reg q)) s = .next t ∧ t.x q = (s.mm r).extractLsb' 0 32 ∧ MmxWritesGpr s t q) ∧
     MmxCompletes (.movqStore r (.reg q)) s q fun v => v = s.mm r)

/-- MOVD, MOVQ and MOVNTQ to memory: the bytes at M hold the value, every other byte and every register is unchanged (40 R141, R143;
48 R351). -/
def Obligations.MmxStoreToMemory : Prop :=
  ∀ (s : State) (r : Reg) (m : Mem), s.mem.wf →
    (mmxReady .base s → reachable .write 4 false s (.mem m) →
      ∃ t, exec (.movdStore r (.mem m)) s = .next t ∧ Holds t (s.lin m) 4 ((s.mm r).extractLsb' 0 32) ∧
        MmxWritesMem s t (addresses (s.lin m) 4)) ∧
    (mmxReady .base s → reachable .write 8 false s (.mem m) →
      ∃ t, exec (.movqStore r (.mem m)) s = .next t ∧ Holds t (s.lin m) 8 (s.mm r) ∧
        MmxWritesMem s t (addresses (s.lin m) 8)) ∧
    (mmxReady .three s → reachable .write 8 false s (.mem m) →
      ∃ t, exec (.movntq r m) s = .next t ∧ Holds t (s.lin m) 8 (s.mm r) ∧ MmxWritesMem s t (addresses (s.lin m) 8))

/-- EMMS: TWR = FFFFh, SWR.TOS = 0, the data registers and everything else unchanged (44 R236). -/
def Obligations.EmmsEmptiesTheTags : Prop :=
  ∀ s : State, mmxReady .base s →
    ∃ t, exec .emms s = .next t ∧ t.twr = 0xFFFF#16 ∧ tosOf t.swr = 0#3 ∧ t.swr &&& 0xC7FF#16 = s.swr &&& 0xC7FF#16 ∧
      t.cwr = s.cwr ∧ SameFpr s t ∧ SameGpr s t ∧ SameXmm s t ∧ t.mxcsr = s.mxcsr ∧ t.eflags = s.eflags ∧ SameMem s t ∧
      SameSystem s t ∧ SameDraws s t

/-! ## MMX arithmetic -/

/-- Wraparound addition and subtraction of bytes, words and doublewords (41 R151 to R153, R158 to R160). -/
def Obligations.WrapAddSubResults : Prop :=
  ∀ (s : State) (r : Reg) (rm : RM), mmxReady .base s → reachable .read 8 false s rm →
    let d := s.mm r
    let v := srcMm s rm
    MmxCompletes (.paddb r rm) s r (fun x => ∀ i < 8, (elem 8 x i).toNat = ((elem 8 d i).toNat + (elem 8 v i).toNat) % 2 ^ 8) ∧
    MmxCompletes (.paddw r rm) s r
      (fun x => ∀ i < 4, (elem 16 x i).toNat = ((elem 16 d i).toNat + (elem 16 v i).toNat) % 2 ^ 16) ∧
    MmxCompletes (.paddd r rm) s r
      (fun x => ∀ i < 2, (elem 32 x i).toNat = ((elem 32 d i).toNat + (elem 32 v i).toNat) % 2 ^ 32) ∧
    MmxCompletes (.psubb r rm) s r
      (fun x => ∀ i < 8, ((elem 8 x i).toNat : Int) = ((elem 8 d i).toNat - (elem 8 v i).toNat : Int) % 2 ^ 8) ∧
    MmxCompletes (.psubw r rm) s r
      (fun x => ∀ i < 4, ((elem 16 x i).toNat : Int) = ((elem 16 d i).toNat - (elem 16 v i).toNat : Int) % 2 ^ 16) ∧
    MmxCompletes (.psubd r rm) s r
      (fun x => ∀ i < 2, ((elem 32 x i).toNat : Int) = ((elem 32 d i).toNat - (elem 32 v i).toNat : Int) % 2 ^ 32)

/-- Saturating addition and subtraction: the exact sum or difference clamped to the element's signed or unsigned range (41 R154 to R157,
R161 to R164; 00_scope R13). -/
def Obligations.SaturationResults : Prop :=
  (∀ (s : State) (r : Reg) (rm : RM), mmxReady .base s → reachable .read 8 false s rm →
     let d := s.mm r
     let v := srcMm s rm
     MmxCompletes (.paddsb r rm) s r
       (fun x => ∀ i < 8, (elem 8 x i).toInt = max (-128) (min 127 ((elem 8 d i).toInt + (elem 8 v i).toInt))) ∧
     MmxCompletes (.paddsw r rm) s r
       (fun x => ∀ i < 4, (elem 16 x i).toInt = max (-32768) (min 32767 ((elem 16 d i).toInt + (elem 16 v i).toInt))) ∧
     MmxCompletes (.psubsb r rm) s r
       (fun x => ∀ i < 8, (elem 8 x i).toInt = max (-128) (min 127 ((elem 8 d i).toInt - (elem 8 v i).toInt))) ∧
     MmxCompletes (.psubsw r rm) s r
       (fun x => ∀ i < 4, (elem 16 x i).toInt = max (-32768) (min 32767 ((elem 16 d i).toInt - (elem 16 v i).toInt)))) ∧
  (∀ (s : State) (r : Reg) (rm : RM), mmxReady .base s → reachable .read 8 false s rm →
     let d := s.mm r
     let v := srcMm s rm
     MmxCompletes (.paddusb r rm) s r
       (fun x => ∀ i < 8, (elem 8 x i).toNat = min 255 ((elem 8 d i).toNat + (elem 8 v i).toNat)) ∧
     MmxCompletes (.paddusw r rm) s r
       (fun x => ∀ i < 4, (elem 16 x i).toNat = min 65535 ((elem 16 d i).toNat + (elem 16 v i).toNat)) ∧
     MmxCompletes (.psubusb r rm) s r
       (fun x => ∀ i < 8, ((elem 8 x i).toNat : Int) = max 0 ((elem 8 d i).toNat - (elem 8 v i).toNat : Int)) ∧
     MmxCompletes (.psubusw r rm) s r
       (fun x => ∀ i < 4, ((elem 16 x i).toNat : Int) = max 0 ((elem 16 d i).toNat - (elem 16 v i).toNat : Int)))

/-- The multiplications: halves of exact products, and sums of adjacent products (41 R165 to R167; 45 R250). -/
def Obligations.MultiplyResults : Prop :=
  ∀ (s : State) (r : Reg) (rm : RM), reachable .read 8 false s rm →
    let d := s.mm r
    let v := srcMm s rm
    let p (i : Nat) : Int := (elem 16 d i).toInt * (elem 16 v i).toInt
    (mmxReady .base s →
      MmxCompletes (.pmulhw r rm) s r (fun x => ∀ i < 4, (elem 16 x i).toInt = p i / 2 ^ 16) ∧
      MmxCompletes (.pmullw r rm) s r (fun x => ∀ i < 4, ((elem 16 x i).toNat : Int) = p i % 2 ^ 16) ∧
      MmxCompletes (.pmaddwd r rm) s r
        (fun x => ∀ i < 2, ((elem 32 x i).toNat : Int) = (p (2 * i) + p (2 * i + 1)) % 2 ^ 32)) ∧
    (mmxReady .three s →
      MmxCompletes (.pmulhuw r rm) s r
        (fun x => ∀ i < 4, (elem 16 x i).toNat = (elem 16 d i).toNat * (elem 16 v i).toNat / 2 ^ 16))

/-! ## MMX comparison and logic -/

/-- The comparisons: all ones where the relation holds, all zeros otherwise; greater-than is signed. The logical instructions, bit by bit;
PANDN complements the destination (42 R180 to R191). -/
def Obligations.CompareAndLogicalResults : Prop :=
  (∀ (s : State) (r : Reg) (rm : RM), mmxReady .base s → reachable .read 8 false s rm →
     let d := s.mm r
     let v := srcMm s rm
     MmxCompletes (.pcmpeqb r rm) s r (fun x => ∀ i < 8, elem 8 x i = if elem 8 d i = elem 8 v i then 0xFF#8 else 0#8) ∧
     MmxCompletes (.pcmpeqw r rm) s r (fun x => ∀ i < 4, elem 16 x i = if elem 16 d i = elem 16 v i then 0xFFFF#16 else 0#16) ∧
     MmxCompletes (.pcmpeqd r rm) s r
       (fun x => ∀ i < 2, elem 32 x i = if elem 32 d i = elem 32 v i then 0xFFFFFFFF#32 else 0#32) ∧
     MmxCompletes (.pcmpgtb r rm) s r
       (fun x => ∀ i < 8, elem 8 x i = if (elem 8 v i).toInt < (elem 8 d i).toInt then 0xFF#8 else 0#8) ∧
     MmxCompletes (.pcmpgtw r rm) s r
       (fun x => ∀ i < 4, elem 16 x i = if (elem 16 v i).toInt < (elem 16 d i).toInt then 0xFFFF#16 else 0#16) ∧
     MmxCompletes (.pcmpgtd r rm) s r
       (fun x => ∀ i < 2, elem 32 x i = if (elem 32 v i).toInt < (elem 32 d i).toInt then 0xFFFFFFFF#32 else 0#32)) ∧
  (∀ (s : State) (r : Reg) (rm : RM), mmxReady .base s → reachable .read 8 false s rm →
     let d := s.mm r
     let v := srcMm s rm
     MmxCompletes (.pand r rm) s r (fun x => ∀ k < 64, x.getLsbD k = (d.getLsbD k && v.getLsbD k)) ∧
     MmxCompletes (.pandn r rm) s r (fun x => ∀ k < 64, x.getLsbD k = (!d.getLsbD k && v.getLsbD k)) ∧
     MmxCompletes (.por r rm) s r (fun x => ∀ k < 64, x.getLsbD k = (d.getLsbD k || v.getLsbD k)) ∧
     MmxCompletes (.pxor r rm) s r (fun x => ∀ k < 64, x.getLsbD k = (d.getLsbD k ^^ v.getLsbD k)))

/-! ## MMX shifts -/

/-- Shifts by the whole 64-bit count: zeros at or above the width, the sign there for the arithmetic ones (43 R200 to R210). -/
def Obligations.ShiftByOperandResults : Prop :=
  ∀ (s : State) (r : Reg) (rm : RM), mmxReady .base s → reachable .read 8 false s rm →
    let d := s.mm r
    let c := (srcMm s rm).toNat
    MmxCompletes (.psllw r rm) s r
      (fun x => ∀ i < 4, (elem 16 x i).toNat = if 16 ≤ c then 0 else (elem 16 d i).toNat * 2 ^ c % 2 ^ 16) ∧
    MmxCompletes (.pslld r rm) s r
      (fun x => ∀ i < 2, (elem 32 x i).toNat = if 32 ≤ c then 0 else (elem 32 d i).toNat * 2 ^ c % 2 ^ 32) ∧
    MmxCompletes (.psllq r rm) s r (fun x => x.toNat = if 64 ≤ c then 0 else d.toNat * 2 ^ c % 2 ^ 64) ∧
    MmxCompletes (.psrlw r rm) s r (fun x => ∀ i < 4, (elem 16 x i).toNat = if 16 ≤ c then 0 else (elem 16 d i).toNat / 2 ^ c) ∧
    MmxCompletes (.psrld r rm) s r (fun x => ∀ i < 2, (elem 32 x i).toNat = if 32 ≤ c then 0 else (elem 32 d i).toNat / 2 ^ c) ∧
    MmxCompletes (.psrlq r rm) s r (fun x => x.toNat = if 64 ≤ c then 0 else d.toNat / 2 ^ c) ∧
    MmxCompletes (.psraw r rm) s r (fun x => ∀ i < 4, (elem 16 x i).toInt = (elem 16 d i).toInt / 2 ^ min c 15) ∧
    MmxCompletes (.psrad r rm) s r (fun x => ∀ i < 2, (elem 32 x i).toInt = (elem 32 d i).toInt / 2 ^ min c 31)

/-- Shifts by the immediate, an unsigned count 0 to 255 (43 R200, R201, R212 to R219). -/
def Obligations.ShiftByImmediateResults : Prop :=
  ∀ (s : State) (q : Reg) (imm : Byte), mmxReady .base s →
    let d := s.mm q
    let c := imm.toNat
    MmxCompletes (.psllwImm q imm) s q
      (fun x => ∀ i < 4, (elem 16 x i).toNat = if 16 ≤ c then 0 else (elem 16 d i).toNat * 2 ^ c % 2 ^ 16) ∧
    MmxCompletes (.pslldImm q imm) s q
      (fun x => ∀ i < 2, (elem 32 x i).toNat = if 32 ≤ c then 0 else (elem 32 d i).toNat * 2 ^ c % 2 ^ 32) ∧
    MmxCompletes (.psllqImm q imm) s q (fun x => x.toNat = if 64 ≤ c then 0 else d.toNat * 2 ^ c % 2 ^ 64) ∧
    MmxCompletes (.psrlwImm q imm) s q
      (fun x => ∀ i < 4, (elem 16 x i).toNat = if 16 ≤ c then 0 else (elem 16 d i).toNat / 2 ^ c) ∧
    MmxCompletes (.psrldImm q imm) s q
      (fun x => ∀ i < 2, (elem 32 x i).toNat = if 32 ≤ c then 0 else (elem 32 d i).toNat / 2 ^ c) ∧
    MmxCompletes (.psrlqImm q imm) s q (fun x => x.toNat = if 64 ≤ c then 0 else d.toNat / 2 ^ c) ∧
    MmxCompletes (.psrawImm q imm) s q (fun x => ∀ i < 4, (elem 16 x i).toInt = (elem 16 d i).toInt / 2 ^ min c 15) ∧
    MmxCompletes (.psradImm q imm) s q (fun x => ∀ i < 2, (elem 32 x i).toInt = (elem 32 d i).toInt / 2 ^ min c 31)

/-! ## MMX pack and unpack -/

/-- The packs: the destination's elements in the low half, the source's in the high half, each clamped. The unpacks: the destination's
element is the low half of each pair, the source's the high half; the low-half ones need only 4 bytes of memory (44 R220 to R234;
90_conflicts C21, C22). -/
def Obligations.PackAndUnpackResults : Prop :=
  (∀ (s : State) (r : Reg) (rm : RM), mmxReady .base s → reachable .read 8 false s rm →
     let d := s.mm r
     let v := srcMm s rm
     MmxCompletes (.packssdw r rm) s r (fun x => ∀ i < 2,
       (elem 16 x i).toInt = max (-32768) (min 32767 (elem 32 d i).toInt) ∧
       (elem 16 x (2 + i)).toInt = max (-32768) (min 32767 (elem 32 v i).toInt)) ∧
     MmxCompletes (.packsswb r rm) s r (fun x => ∀ i < 4,
       (elem 8 x i).toInt = max (-128) (min 127 (elem 16 d i).toInt) ∧
       (elem 8 x (4 + i)).toInt = max (-128) (min 127 (elem 16 v i).toInt)) ∧
     MmxCompletes (.packuswb r rm) s r (fun x => ∀ i < 4,
       ((elem 8 x i).toNat : Int) = max 0 (min 255 (elem 16 d i).toInt) ∧
       ((elem 8 x (4 + i)).toNat : Int) = max 0 (min 255 (elem 16 v i).toInt))) ∧
  (∀ (s : State) (r : Reg) (rm : RM), mmxReady .base s →
     let d := s.mm r
     (reachable .read 8 false s rm →
       let v := srcMm s rm
       MmxCompletes (.punpckhbw r rm) s r (fun x => ∀ i < 4,
         elem 8 x (2 * i) = elem 8 d (4 + i) ∧ elem 8 x (2 * i + 1) = elem 8 v (4 + i)) ∧
       MmxCompletes (.punpckhwd r rm) s r (fun x => ∀ i < 2,
         elem 16 x (2 * i) = elem 16 d (2 + i) ∧ elem 16 x (2 * i + 1) = elem 16 v (2 + i)) ∧
       MmxCompletes (.punpckhdq r rm) s r (fun x => elem 32 x 0 = elem 32 d 1 ∧ elem 32 x 1 = elem 32 v 1)) ∧
     (reachable .read 4 false s rm →
       let v := srcMm32 s rm
       MmxCompletes (.punpcklbw r rm) s r (fun x => ∀ i < 4,
         elem 8 x (2 * i) = elem 8 d i ∧ elem 8 x (2 * i + 1) = elem 8 v i) ∧
       MmxCompletes (.punpcklwd r rm) s r (fun x => ∀ i < 2,
         elem 16 x (2 * i) = elem 16 d i ∧ elem 16 x (2 * i + 1) = elem 16 v i) ∧
       MmxCompletes (.punpckldq r rm) s r (fun x => elem 32 x 0 = elem 32 d 0 ∧ elem 32 x 1 = v)))

/-! ## The integer additions of the Pentium III -/

/-- Averages rounded up, maxima, minima, and the sum of absolute differences (45 R241, R242, R245 to R248, R251). -/
def Obligations.AverageExtremeAndSadResults : Prop :=
  ∀ (s : State) (r : Reg) (rm : RM), mmxReady .three s → reachable .read 8 false s rm →
    let d := s.mm r
    let v := srcMm s rm
    MmxCompletes (.pavgb r rm) s r (fun x => ∀ i < 8, (elem 8 x i).toNat = ((elem 8 d i).toNat + (elem 8 v i).toNat + 1) / 2) ∧
    MmxCompletes (.pavgw r rm) s r
      (fun x => ∀ i < 4, (elem 16 x i).toNat = ((elem 16 d i).toNat + (elem 16 v i).toNat + 1) / 2) ∧
    MmxCompletes (.pmaxub r rm) s r (fun x => ∀ i < 8, (elem 8 x i).toNat = max (elem 8 d i).toNat (elem 8 v i).toNat) ∧
    MmxCompletes (.pminub r rm) s r (fun x => ∀ i < 8, (elem 8 x i).toNat = min (elem 8 d i).toNat (elem 8 v i).toNat) ∧
    MmxCompletes (.pmaxsw r rm) s r (fun x => ∀ i < 4, (elem 16 x i).toInt = max (elem 16 d i).toInt (elem 16 v i).toInt) ∧
    MmxCompletes (.pminsw r rm) s r (fun x => ∀ i < 4, (elem 16 x i).toInt = min (elem 16 d i).toInt (elem 16 v i).toInt) ∧
    MmxCompletes (.psadbw r rm) s r (fun x =>
      x.toNat = ((List.range 8).map fun i =>
        max (elem 8 d i).toNat (elem 8 v i).toNat - min (elem 8 d i).toNat (elem 8 v i).toNat).sum)

/-- PSHUFW, PINSRW, PEXTRW: words chosen by the two-bit fields of imm8, the other bits of imm8 ignored; PEXTRW and PMOVMSKB write all 32
bits of the general register, the upper ones with zeros (45 R243, R244, R249, R252). -/
def Obligations.WordShuffleAndExtractResults : Prop :=
  (∀ (s : State) (r : Reg) (rm : RM) (imm : Byte), mmxReady .three s →
     (reachable .read 8 false s rm →
       MmxCompletes (.pshufw r rm imm) s r (fun x => ∀ i < 4, elem 16 x i = elem 16 (srcMm s rm) (imm.toNat / 4 ^ i % 4))) ∧
     (reachable .read 2 false s rm →
       MmxCompletes (.pinsrw r rm imm) s r (fun x => ∀ i < 4,
         elem 16 x i = if i = imm.toNat % 4 then srcGp16 s rm else elem 16 (s.mm r) i))) ∧
  (∀ (s : State) (r q : Reg) (imm : Byte), mmxReady .three s →
     (∃ t, exec (.pextrw r q imm) s = .next t ∧ (t.x r).toNat = (elem 16 (s.mm q) (imm.toNat % 4)).toNat ∧ MmxWritesGpr s t r) ∧
     (∃ t, exec (.pmovmskb r q) s = .next t ∧
       (∀ i < 8, (t.x r).getLsbD i = (elem 8 (s.mm q) i).getLsbD 7) ∧ (∀ i, 8 ≤ i → (t.x r).getLsbD i = false) ∧
       MmxWritesGpr s t r))

/-- MASKMOVQ: each selected byte of `mm[reg]` at its own address, every other byte of memory unchanged; bytes not selected need not
be accessible (48 R350; 20_memory R86). -/
def Obligations.MaskmovqStoresSelectedBytes : Prop :=
  ∀ (s : State) (r q : Reg) (ovr : Option Seg) (size : AddrSize), mmxReady .three s → s.mem.wf →
    (∀ i < 8, (elem 8 (s.mm q) i).getLsbD 7 → byteOpen s.plat .write (s.maskByteAddr ovr size i)) →
    ∃ t, exec (.maskmovq r q ovr size) s = .next t ∧
      (∀ i < 8, (elem 8 (s.mm q) i).getLsbD 7 → t.mem.read (s.maskByteAddr ovr size i).toNat = elem 8 (s.mm r) i) ∧
      MmxWritesMem s t ((selectedBytes (s.mm q)).map (s.maskByteAddr ovr size))

/-! ## XMM data movement -/

/-- MOVAPS and MOVUPS into a register, MOVHPS and MOVLPS from memory, MOVHLPS and MOVLHPS; MOVSS: from a register bits 127:32 stay, from
memory they become 0, to a register bits 127:32 stay; MOVAPS and MOVUPS to a register; MOVMSKPS (46 R260 to R264, R266 to R268, R270,
R272, R273; 90_conflicts C20). -/
def Obligations.XmmMovesToRegisters : Prop :=
  (∀ (s : State) (r q : Reg) (rm : RM) (m : Mem), xmmReady s →
     (reachable .read 16 true s rm → XmmCompletes (.movapsLoad r rm) s r fun x => x = srcXm s rm) ∧
     (reachable .read 16 false s rm → XmmCompletes (.movupsLoad r rm) s r fun x => x = srcXm s rm) ∧
     (reachable .read 8 false s (.mem m) →
       XmmCompletes (.movhpsLoad r m) s r (fun x =>
         x.extractLsb' 64 64 = srcXm64 s (.mem m) ∧ x.extractLsb' 0 64 = (s.xm r).extractLsb' 0 64) ∧
       XmmCompletes (.movlpsLoad r m) s r (fun x =>
         x.extractLsb' 0 64 = srcXm64 s (.mem m) ∧ x.extractLsb' 64 64 = (s.xm r).extractLsb' 64 64)) ∧
     XmmCompletes (.movhlps r q) s r (fun x =>
       x.extractLsb' 0 64 = (s.xm q).extractLsb' 64 64 ∧ x.extractLsb' 64 64 = (s.xm r).extractLsb' 64 64) ∧
     XmmCompletes (.movlhps r q) s r (fun x =>
       x.extractLsb' 64 64 = (s.xm q).extractLsb' 0 64 ∧ x.extractLsb' 0 64 = (s.xm r).extractLsb' 0 64)) ∧
  (∀ (s : State) (r q : Reg) (m : Mem), xmmReady s →
     XmmCompletes (.movssLoad r (.reg q)) s r (fun x =>
       x.extractLsb' 0 32 = (s.xm q).extractLsb' 0 32 ∧ x.extractLsb' 32 96 = (s.xm r).extractLsb' 32 96) ∧
     (reachable .read 4 false s (.mem m) →
       XmmCompletes (.movssLoad r (.mem m)) s r (fun x =>
         x.extractLsb' 0 32 = s.mem.readValue (s.lin m) 32 4 ∧ x.extractLsb' 32 96 = 0#96)) ∧
     XmmCompletes (.movssStore r (.reg q)) s q (fun x =>
       x.extractLsb' 0 32 = (s.xm r).extractLsb' 0 32 ∧ x.extractLsb' 32 96 = (s.xm q).extractLsb' 32 96)) ∧
  (∀ (s : State) (r q : Reg), xmmReady s →
     XmmCompletes (.movapsStore r (.reg q)) s q (fun x => x = s.xm r) ∧
     XmmCompletes (.movupsStore r (.reg q)) s q (fun x => x = s.xm r) ∧
     (∃ t, exec (.movmskps r q) s = .next t ∧ (∀ k < 4, (t.x r).getLsbD k = (elem 32 (s.xm q) k).getLsbD 31) ∧
       (∀ k, 4 ≤ k → (t.x r).getLsbD k = false) ∧ WritesGprOnly s t (· = r) ∧ SameDraws s t))

/-- The XMM stores to memory: the bytes at M hold the value, every other byte and every register is unchanged (46 R261, R263, R265,
R269, R273; 48 R352, R339). -/
def Obligations.XmmStoreToMemory : Prop :=
  ∀ (s : State) (r : Reg) (m : Mem), xmmReady s → s.mem.wf →
    let stores (i : Instr) (n : Nat) (w : Nat) (v : BitVec w) : Prop :=
      ∃ t, exec i s = .next t ∧ Holds t (s.lin m) n v ∧ XmmWritesMem s t (addresses (s.lin m) n) ∧ t.draws = s.draws
    (reachable .write 16 true s (.mem m) →
      stores (.movapsStore r (.mem m)) 16 128 (s.xm r) ∧ stores (.movntps r m) 16 128 (s.xm r)) ∧
    (reachable .write 16 false s (.mem m) → stores (.movupsStore r (.mem m)) 16 128 (s.xm r)) ∧
    (reachable .write 8 false s (.mem m) →
      stores (.movhpsStore r m) 8 64 ((s.xm r).extractLsb' 64 64) ∧ stores (.movlpsStore r m) 8 64 ((s.xm r).extractLsb' 0 64)) ∧
    (reachable .write 4 false s (.mem m) →
      stores (.movssStore r (.mem m)) 4 32 ((s.xm r).extractLsb' 0 32) ∧ stores (.stmxcsr m) 4 32 s.mxcsr)

/-! ## XMM logic and shuffles -/

/-- The XMM logical instructions, bit by bit over 128 bits; SHUFPS, UNPCKHPS, UNPCKLPS (48 R329 to R333, R345 to R347). -/
def Obligations.XmmLogicalAndShuffleResults : Prop :=
  (∀ (s : State) (r : Reg) (rm : RM), xmmReady s → reachable .read 16 true s rm →
     let d := s.xm r
     let v := srcXm s rm
     XmmCompletes (.andps r rm) s r (fun x => ∀ k < 128, x.getLsbD k = (d.getLsbD k && v.getLsbD k)) ∧
     XmmCompletes (.andnps r rm) s r (fun x => ∀ k < 128, x.getLsbD k = (!d.getLsbD k && v.getLsbD k)) ∧
     XmmCompletes (.orps r rm) s r (fun x => ∀ k < 128, x.getLsbD k = (d.getLsbD k || v.getLsbD k)) ∧
     XmmCompletes (.xorps r rm) s r (fun x => ∀ k < 128, x.getLsbD k = (d.getLsbD k ^^ v.getLsbD k))) ∧
  (∀ (s : State) (r : Reg) (rm : RM) (imm : Byte), xmmReady s → reachable .read 16 true s rm →
     let d := s.xm r
     let v := srcXm s rm
     XmmCompletes (.shufps r rm imm) s r (fun x =>
       elem 32 x 0 = elem 32 d (imm.toNat % 4) ∧ elem 32 x 1 = elem 32 d (imm.toNat / 4 % 4) ∧
       elem 32 x 2 = elem 32 v (imm.toNat / 16 % 4) ∧ elem 32 x 3 = elem 32 v (imm.toNat / 64 % 4)) ∧
     XmmCompletes (.unpckhps r rm) s r (fun x =>
       elem 32 x 0 = elem 32 d 2 ∧ elem 32 x 1 = elem 32 v 2 ∧ elem 32 x 2 = elem 32 d 3 ∧ elem 32 x 3 = elem 32 v 3) ∧
     XmmCompletes (.unpcklps r rm) s r (fun x =>
       elem 32 x 0 = elem 32 d 0 ∧ elem 32 x 1 = elem 32 v 0 ∧ elem 32 x 2 = elem 32 d 1 ∧ elem 32 x 3 = elem 32 v 1))

/-! ## XMM arithmetic: the scheme, with the element functions -/

/-- ADDPS, SUBPS, MULPS and their scalar forms: element by element with the destination's element first, the flags united and ORed
into MXCSR, where no signalled flag is unmasked (47 R280, R288, R291 to R294, R297, R298). -/
def Obligations.AddSubMulResults : Prop :=
  ∀ (s : State) (r : Reg) (rm : RM), xmmReady s →
    let packedIs (i : Instr) (f : Dword → Dword → Signalled Dword) : Prop :=
      let e (k : Nat) := f (elem 32 (s.xm r) k) (elem 32 (srcXm s rm) k)
      let flags := (e 0).pre ||| (e 1).pre ||| (e 2).pre ||| (e 3).pre ||| (e 0).post ||| (e 1).post ||| (e 2).post ||| (e 3).post
      noneUnmasked s flags → NumericCompletes i s r flags fun x => ∀ k < 4, elem 32 x k = (e k).res
    let scalarIs (i : Instr) (f : Dword → Dword → Signalled Dword) : Prop :=
      let e := f (elem 32 (s.xm r) 0) (srcXm32 s rm)
      noneUnmasked s (e.pre ||| e.post) → NumericCompletes i s r (e.pre ||| e.post) fun x =>
        x.extractLsb' 0 32 = e.res ∧ x.extractLsb' 32 96 = (s.xm r).extractLsb' 32 96
    (reachable .read 16 true s rm →
      packedIs (.addps r rm) (fpAdd s.mxcsr) ∧ packedIs (.subps r rm) (fpSub s.mxcsr) ∧ packedIs (.mulps r rm) (fpMul s.mxcsr)) ∧
    (reachable .read 4 false s rm →
      scalarIs (.addss r rm) (fpAdd s.mxcsr) ∧ scalarIs (.subss r rm) (fpSub s.mxcsr) ∧ scalarIs (.mulss r rm) (fpMul s.mxcsr))

/-- DIVPS and DIVSS, whatever the draw for DE at a denormal divided by zero is, one draw used (the draw counter is the model's: log 11,
19); SQRTPS and SQRTSS, which take the source's elements only (47 R280, R286, R295, R296, R299, R311). -/
def Obligations.DivideAndSqrtResults : Prop :=
  (∀ (s : State) (r : Reg) (rm : RM), xmmReady s →
     (reachable .read 16 true s rm →
       let e (k : Nat) := fpDiv (Config.divideDenormalDE s.draws k) s.mxcsr (elem 32 (s.xm r) k) (elem 32 (srcXm s rm) k)
       let flags := (e 0).pre ||| (e 1).pre ||| (e 2).pre ||| (e 3).pre ||| (e 0).post ||| (e 1).post ||| (e 2).post ||| (e 3).post
       noneUnmasked s flags →
         ∃ t, exec (.divps r rm) s = .next t ∧ (∀ k < 4, elem 32 (t.xm r) k = (e k).res) ∧
           t.mxcsr = s.mxcsr ||| flags.setWidth 32 ∧ WritesXmFlags s t r ∧ t.draws = s.draws + 1) ∧
     (reachable .read 4 false s rm →
       let e := fpDiv (Config.divideDenormalDE s.draws 0) s.mxcsr (elem 32 (s.xm r) 0) (srcXm32 s rm)
       noneUnmasked s (e.pre ||| e.post) →
         ∃ t, exec (.divss r rm) s = .next t ∧ (t.xm r).extractLsb' 0 32 = e.res ∧
           (t.xm r).extractLsb' 32 96 = (s.xm r).extractLsb' 32 96 ∧ t.mxcsr = s.mxcsr ||| (e.pre ||| e.post).setWidth 32 ∧
           WritesXmFlags s t r ∧ t.draws = s.draws + 1)) ∧
  (∀ (s : State) (r : Reg) (rm : RM), xmmReady s →
     (reachable .read 16 true s rm →
       let e (k : Nat) := fpSqrt s.mxcsr (elem 32 (srcXm s rm) k)
       let flags := (e 0).pre ||| (e 1).pre ||| (e 2).pre ||| (e 3).pre ||| (e 0).post ||| (e 1).post ||| (e 2).post ||| (e 3).post
       noneUnmasked s flags → NumericCompletes (.sqrtps r rm) s r flags fun x => ∀ k < 4, elem 32 x k = (e k).res) ∧
     (reachable .read 4 false s rm →
       let e := fpSqrt s.mxcsr (srcXm32 s rm)
       noneUnmasked s (e.pre ||| e.post) → NumericCompletes (.sqrtss r rm) s r (e.pre ||| e.post) fun x =>
         x.extractLsb' 0 32 = e.res ∧ x.extractLsb' 32 96 = (s.xm r).extractLsb' 32 96))

/-- MAXPS, MINPS, MAXSS, MINSS: the source's element where an operand is a NaN or both are zeros, else the greater or the lesser; IE for a
NaN, else nothing for two zeros, else DE for a denormal (47 R287, R301 to R304). CMPPS and CMPSS: predicates 0 to 3 are EQ, LT, LE, UNORD,
and 4 to 7 their negations; IE for an SNaN, and for a QNaN under LT, LE, NLT and NLE, else DE for a denormal (47 R289, R300, R312; DE
beside a QNaN: log 36); a predicate above 7 is refused once the checks and the operand have passed (R289; log 26). Where no signalled flag
is unmasked (else: `UnmaskedConditionRaises`). -/
def Obligations.MaxMinAndCompareResults : Prop :=
  ∀ (s : State) (r : Reg) (rm : RM) (imm : Byte), xmmReady s →
    let denormal (a b : Dword) : FpFlags := if DenormalBits a ∨ DenormalBits b then flagDE else noFlags
    let extremeFlags (a b : Dword) : FpFlags :=
      if NaNBits a ∨ NaNBits b then flagIE else if ZeroBits a ∧ ZeroBits b then noFlags else denormal a b
    let compareFlags (a b : Dword) : FpFlags :=
      if SNaNBits a ∨ SNaNBits b ∨ ((NaNBits a ∨ NaNBits b) ∧ (imm = 1#8 ∨ imm = 2#8 ∨ imm = 5#8 ∨ imm = 6#8)) then flagIE
      else denormal a b
    let pick (which : Relation) (a b x : Dword) : Prop :=
      (NaNBits a ∨ NaNBits b → x = b) ∧ (ZeroBits a → ZeroBits b → x = b) ∧
      (¬NaNBits a → ¬NaNBits b → ¬(ZeroBits a ∧ ZeroBits b) → x = if relation a b = which then a else b)
    let base (x : Relation) : Prop :=
      (imm.toNat % 4 = 0 ∧ x = .eq) ∨ (imm.toNat % 4 = 1 ∧ x = .lt) ∨ (imm.toNat % 4 = 2 ∧ (x = .lt ∨ x = .eq)) ∨
        (imm.toNat % 4 = 3 ∧ x = .un)
    let maskIs (a b x : Dword) : Prop :=
      (imm.toNat < 4 → (base (relation a b) → x = 0xFFFFFFFF#32) ∧ (¬base (relation a b) → x = 0#32)) ∧
      (4 ≤ imm.toNat → (base (relation a b) → x = 0#32) ∧ (¬base (relation a b) → x = 0xFFFFFFFF#32))
    let packedIs (i : Instr) (flags : Dword → Dword → FpFlags) (is : Dword → Dword → Dword → Prop) : Prop :=
      let a (k : Nat) := elem 32 (s.xm r) k
      let b (k : Nat) := elem 32 (srcXm s rm) k
      let f := flags (a 0) (b 0) ||| flags (a 1) (b 1) ||| flags (a 2) (b 2) ||| flags (a 3) (b 3)
      noneUnmasked s f → NumericCompletes i s r f fun x => ∀ k < 4, is (a k) (b k) (elem 32 x k)
    let scalarIs (i : Instr) (flags : Dword → Dword → FpFlags) (is : Dword → Dword → Dword → Prop) : Prop :=
      let a := elem 32 (s.xm r) 0
      let b := srcXm32 s rm
      noneUnmasked s (flags a b) → NumericCompletes i s r (flags a b) fun x =>
        is a b (elem 32 x 0) ∧ x.extractLsb' 32 96 = (s.xm r).extractLsb' 32 96
    (reachable .read 16 true s rm →
      packedIs (.maxps r rm) extremeFlags (pick .gt) ∧ packedIs (.minps r rm) extremeFlags (pick .lt) ∧
      (imm.toNat ≤ 7 → packedIs (.cmpps r rm imm) compareFlags maskIs) ∧
      (7 < imm.toNat → exec (.cmpps r rm imm) s = .refused (.reservedPredicate imm))) ∧
    (reachable .read 4 false s rm →
      scalarIs (.maxss r rm) extremeFlags (pick .gt) ∧ scalarIs (.minss r rm) extremeFlags (pick .lt) ∧
      (imm.toNat ≤ 7 → scalarIs (.cmpss r rm imm) compareFlags maskIs) ∧
      (7 < imm.toNat → exec (.cmpss r rm imm) s = .refused (.reservedPredicate imm)))

/-- COMISS and UCOMISS: ZF, PF, CF by the relation, OF, SF, AF cleared, every other bit of EFLAGS kept. COMISS signals IE for any NaN,
else DE for a denormal; UCOMISS IE for an SNaN only, nothing for a QNaN, whatever stands beside it, else DE for a denormal (47 R305, R306;
60_exceptions R393). Where no signalled flag is unmasked (else: `UnmaskedConditionRaises`). -/
def Obligations.ComissResults : Prop :=
  ∀ (s : State) (r : Reg) (rm : RM), xmmReady s → reachable .read 4 false s rm →
    let a := elem 32 (s.xm r) 0
    let b := srcXm32 s rm
    let flagsAre (e : Dword) : Prop :=
      (e.getLsbD 6, e.getLsbD 2, e.getLsbD 0) =
        (match relation a b with
        | .un => (true, true, true)
        | .gt => (false, false, false)
        | .lt => (false, false, true)
        | .eq => (true, false, false)) ∧
      e.getLsbD 11 = false ∧ e.getLsbD 7 = false ∧ e.getLsbD 4 = false ∧
      ∀ k, k ≠ 0 → k ≠ 2 → k ≠ 4 → k ≠ 6 → k ≠ 7 → k ≠ 11 → e.getLsbD k = s.eflags.getLsbD k
    let denormal : FpFlags := if DenormalBits a ∨ DenormalBits b then flagDE else noFlags
    let completes (i : Instr) (f : FpFlags) : Prop :=
      noneUnmasked s f →
        ∃ t, exec i s = .next t ∧ flagsAre t.eflags ∧ t.mxcsr = s.mxcsr ||| f.setWidth 32 ∧ WritesEflags s t
    completes (.comiss r rm) (if NaNBits a ∨ NaNBits b then flagIE else denormal) ∧
    completes (.ucomiss r rm)
      (if SNaNBits a ∨ SNaNBits b then flagIE else if NaNBits a ∨ NaNBits b then noFlags else denormal)

/-- RCPPS, RCPSS, RSQRTPS, RSQRTSS: the fixed cases of 47 R290, and for the others a relative error of at most 1.5 2^-12 or a flushed
zero, whatever the approximation is; no flag (47 R307 to R310). -/
def Obligations.ApproximationResults : Prop :=
  ∀ (s : State) (r : Reg) (rm : RM), xmmReady s →
    let rcp (b x : Dword) : Prop :=
      (NaNBits b → x = b ||| 0x00400000#32) ∧
      (ZeroBits b ∨ DenormalBits b → x = (b &&& 0x80000000#32) ||| 0x7F800000#32) ∧
      (InfBits b → x = b &&& 0x80000000#32) ∧
      (NormalBits b →
        (NormalBits x ∧ (fpUnits x * fpUnits b - 2 ^ 298).natAbs * 8192 ≤ 3 * 2 ^ 298) ∨
          (x = b &&& 0x80000000#32 ∧ 8189 * 2 ^ 275 < 8192 * fpMag b))
    let rsqrt (b x : Dword) : Prop :=
      (NaNBits b → x = b ||| 0x00400000#32) ∧
      (ZeroBits b → x = (b &&& 0x80000000#32) ||| 0x7F800000#32) ∧
      (¬NaNBits b → ¬ZeroBits b → b.getLsbD 31 → x = 0xFFC00000#32) ∧
      (InfBits b → b.getLsbD 31 = false → x = 0#32) ∧
      (DenormalBits b → b.getLsbD 31 = false → x = 0x7F800000#32) ∧
      (NormalBits b → b.getLsbD 31 = false → NormalBits x ∧ x.getLsbD 31 = false ∧
        8189 ^ 2 * 2 ^ 447 ≤ fpMag x ^ 2 * fpMag b * 8192 ^ 2 ∧ fpMag x ^ 2 * fpMag b * 8192 ^ 2 ≤ 8195 ^ 2 * 2 ^ 447)
    (reachable .read 16 true s rm →
      XmmCompletes (.rcpps r rm) s r (fun x => ∀ k < 4, rcp (elem 32 (srcXm s rm) k) (elem 32 x k)) ∧
      XmmCompletes (.rsqrtps r rm) s r (fun x => ∀ k < 4, rsqrt (elem 32 (srcXm s rm) k) (elem 32 x k))) ∧
    (reachable .read 4 false s rm →
      XmmCompletes (.rcpss r rm) s r (fun x =>
        rcp (srcXm32 s rm) (elem 32 x 0) ∧ x.extractLsb' 32 96 = (s.xm r).extractLsb' 32 96) ∧
      XmmCompletes (.rsqrtss r rm) s r (fun x =>
        rsqrt (srcXm32 s rm) (elem 32 x 0) ∧ x.extractLsb' 32 96 = (s.xm r).extractLsb' 32 96))

/-! ## The element functions -/

/-- A NaN operand of ADD, SUB, MUL, DIV, SQRT comes out quieted, the first operand's before the second's, with IE exactly for an SNaN
(47 R283). -/
def Obligations.NanOperandsComeOutQuiet : Prop :=
  ∀ (mx a b : Dword) (de : Bool),
    (NaNBits a ∨ NaNBits b →
      ∀ f ∈ [fpAdd mx, fpSub mx, fpMul mx, fpDiv de mx],
        (NaNBits a → (f a b).res = a ||| 0x00400000#32) ∧ (¬NaNBits a → (f a b).res = b ||| 0x00400000#32) ∧
        (SNaNBits a ∨ SNaNBits b → (f a b).pre = flagIE) ∧ (¬SNaNBits a → ¬SNaNBits b → (f a b).pre = noFlags) ∧
        (f a b).post = noFlags) ∧
    (NaNBits b → (fpSqrt mx b).res = b ||| 0x00400000#32 ∧ (fpSqrt mx b).post = noFlags ∧
      (SNaNBits b → (fpSqrt mx b).pre = flagIE) ∧ (¬SNaNBits b → (fpSqrt mx b).pre = noFlags))

/-- Where nothing is rounded: the invalid operations; the division by zero; an operand that is an infinity or a zero (the sign of a product
or quotient, DE for a denormal beside it); and an exact sum of zero: the zero of the sign when both terms are zeros of one sign, else +0,
but -0 in the mode toward minus infinity (47 R286 steps 2 to 6; whether DE is signalled for a denormal divided by zero is a draw: log
19). -/
def Obligations.SpecialArithmeticResults : Prop :=
  ∀ (mx a b : Dword) (de : Bool), ¬NaNBits a → ¬NaNBits b →
    let denormal : FpFlags := if DenormalBits a ∨ DenormalBits b then flagDE else noFlags
    let sign := (a ^^^ b) &&& 0x80000000#32
    let zeroSum : Dword := if mx.extractLsb' 13 2 = 1#2 then 0x80000000#32 else 0#32
    (InfBits a → InfBits b → a.getLsbD 31 ≠ b.getLsbD 31 → fpAdd mx a b = ⟨0xFFC00000#32, flagIE, noFlags⟩) ∧
    (InfBits a → InfBits b → a.getLsbD 31 = b.getLsbD 31 → fpSub mx a b = ⟨0xFFC00000#32, flagIE, noFlags⟩) ∧
    ((ZeroBits a ∧ InfBits b) ∨ (InfBits a ∧ ZeroBits b) → fpMul mx a b = ⟨0xFFC00000#32, flagIE, noFlags⟩) ∧
    ((ZeroBits a ∧ ZeroBits b) ∨ (InfBits a ∧ InfBits b) → fpDiv de mx a b = ⟨0xFFC00000#32, flagIE, noFlags⟩) ∧
    (ZeroBits b → NormalBits a → fpDiv de mx a b = ⟨sign ||| 0x7F800000#32, flagZE, noFlags⟩) ∧
    (ZeroBits b → DenormalBits a →
      (fpDiv de mx a b).res = sign ||| 0x7F800000#32 ∧ (fpDiv de mx a b).pre &&& ~~~flagDE = flagZE ∧
        (fpDiv de mx a b).post = noFlags) ∧
    (InfBits a → (InfBits b → a.getLsbD 31 = b.getLsbD 31) → fpAdd mx a b = ⟨a, denormal, noFlags⟩) ∧
    (InfBits b → ¬InfBits a → fpAdd mx a b = ⟨b, denormal, noFlags⟩) ∧
    (InfBits a → (InfBits b → a.getLsbD 31 ≠ b.getLsbD 31) → fpSub mx a b = ⟨a, denormal, noFlags⟩) ∧
    (InfBits b → ¬InfBits a → fpSub mx a b = ⟨b ^^^ 0x80000000#32, denormal, noFlags⟩) ∧
    ((InfBits a ∧ ¬ZeroBits b) ∨ (InfBits b ∧ ¬ZeroBits a) → fpMul mx a b = ⟨sign ||| 0x7F800000#32, denormal, noFlags⟩) ∧
    ((ZeroBits a ∧ ¬InfBits b) ∨ (ZeroBits b ∧ ¬InfBits a) → fpMul mx a b = ⟨sign, denormal, noFlags⟩) ∧
    (InfBits a → ¬InfBits b → fpDiv de mx a b = ⟨sign ||| 0x7F800000#32, denormal, noFlags⟩) ∧
    ((InfBits b ∧ ¬InfBits a) ∨ (ZeroBits a ∧ ¬ZeroBits b) → fpDiv de mx a b = ⟨sign, denormal, noFlags⟩) ∧
    (¬InfBits a → ¬InfBits b → fpVal a + fpVal b = 0 →
      fpAdd mx a b = ⟨if ZeroBits a ∧ a = b then a else zeroSum, denormal, noFlags⟩) ∧
    (¬InfBits a → ¬InfBits b → fpVal a - fpVal b = 0 →
      fpSub mx a b = ⟨if ZeroBits a ∧ a = b ^^^ 0x80000000#32 then a else zeroSum, denormal, noFlags⟩)

/-- Everywhere else the sum, the difference, the product and the quotient of two finite numbers are the exact real result rounded by 47 R284
and R285, with DE where an operand is a denormal (47 R286 steps 4, 6 and 7). -/
def Obligations.ArithmeticRoundsTheExactValue : Prop :=
  ∀ (mx a b : Dword) (de : Bool), ¬NaNBits a → ¬InfBits a → ¬NaNBits b → ¬InfBits b →
    let rounds (x : ℚ) (e : Signalled Dword) : Prop :=
      RoundsTo mx x e.res e.post ∧ e.pre = if DenormalBits a ∨ DenormalBits b then flagDE else noFlags
    (fpVal a + fpVal b ≠ 0 → rounds (fpVal a + fpVal b) (fpAdd mx a b)) ∧
    (fpVal a - fpVal b ≠ 0 → rounds (fpVal a - fpVal b) (fpSub mx a b)) ∧
    (¬ZeroBits a → ¬ZeroBits b →
      rounds (fpVal a * fpVal b) (fpMul mx a b) ∧ rounds (fpVal a / fpVal b) (fpDiv de mx a b))

/-- The rounding of the model is the rounding of 47 R284 and R285, in all four modes, ties to even, with overflow, underflow and every flag:
of an exact ratio; and of a real number of which an integer part of at least 25 bits is known and that a non-zero rest is left
(`sticky`), as the square root and the reciprocals of roots leave it. -/
def Obligations.RoundingIsCorrect : Prop :=
  ∀ (mx : Dword) (x : Exact), 0 < x.num → 0 < x.den →
    (x.sticky = false → RoundsTo mx x.value (roundSingle mx x).1 (roundSingle mx x).2) ∧
    (x.sticky → x.den = 1 → 2 ^ 24 ≤ x.num →
      ∀ y : ℝ, (x.num : ℝ) * 2 ^ x.exp < |y| → |y| < ((x.num : ℝ) + 1) * 2 ^ x.exp → (y < 0 ↔ x.neg) →
        RoundsTo mx y (roundSingle mx x).1 (roundSingle mx x).2)

/-- Overflow of a power of two beyond the range: OE and PE, and infinity or the greatest finite number by mode and sign. A power of two
below the normal range: with UM = 1 and FZ = 1 a zero of its sign with UE and PE; with UM = 0 the flag UE whatever FZ is; with UM = 1 and
FZ = 0 a denormal, exact, with no flag. And every normal number, taken as an exact value, rounds to itself with no flag, in every mode
(47 R282, R284, R285; 10_state R46). -/
def Obligations.OverflowUnderflowAndExactResults : Prop :=
  (∀ (mx : Dword) (neg : Bool) (e : Nat), 128 ≤ e →
     roundSingle mx ⟨neg, 1, 1, e, false⟩ =
       ((match mxRC mx, neg with
         | .nearest, false => 0x7F800000#32
         | .nearest, true => 0xFF800000#32
         | .down, false => 0x7F7FFFFF#32
         | .down, true => 0xFF800000#32
         | .up, false => 0x7F800000#32
         | .up, true => 0xFF7FFFFF#32
         | .zero, false => 0x7F7FFFFF#32
         | .zero, true => 0xFF7FFFFF#32), flagOE ||| flagPE)) ∧
  (∀ (mx : Dword) (neg : Bool) (e : Nat), 127 ≤ e →
     let x : Exact := ⟨neg, 1, 1, -(e : Int), false⟩
     (mx.getLsbD 11 → mx.getLsbD 15 → roundSingle mx x = ((if neg then 0x80000000#32 else 0#32), flagUE ||| flagPE)) ∧
     (mx.getLsbD 11 = false → (roundSingle mx x).2 &&& flagUE = flagUE) ∧
     (mx.getLsbD 11 → mx.getLsbD 15 = false → e ≤ 149 →
       roundSingle mx x = ((if neg then 0x80000000#32 else 0#32) ||| BitVec.ofNat 32 (2 ^ (149 - e)), noFlags))) ∧
  (∀ mx v : Dword, NormalBits v → roundSingle mx ⟨v.getLsbD 31, fpMan v, 1, fpScale v, false⟩ = (v, noFlags))

/-- The square root of a positive finite number is its exact real root, rounded by 47 R284, with DE for a denormal and at most PE beside it:
it neither overflows nor underflows. The root of a zero and of +infinity is that operand; of a negative number it is invalid (47 R286,
`FpSqrt` steps 2 to 5). -/
def Obligations.SquareRootIsTheRoundedRoot : Prop :=
  ∀ mx b : Dword, ¬NaNBits b →
    (ZeroBits b → fpSqrt mx b = ⟨b, noFlags, noFlags⟩) ∧
    (¬ZeroBits b → b.getLsbD 31 → fpSqrt mx b = ⟨0xFFC00000#32, flagIE, noFlags⟩) ∧
    (InfBits b → b.getLsbD 31 = false → fpSqrt mx b = ⟨b, noFlags, noFlags⟩) ∧
    (¬ZeroBits b → ¬InfBits b → b.getLsbD 31 = false →
      RoundsTo mx (√((fpVal b : ℚ) : ℝ)) (fpSqrt mx b).res (fpSqrt mx b).post ∧
      (fpSqrt mx b).pre = (if DenormalBits b then flagDE else noFlags) ∧ (fpSqrt mx b).post &&& ~~~flagPE = noFlags)

/-- The relation of two numbers that are no NaN is that of their values, val(v) of 47 R282, infinities outermost, the zeros equal; with a
NaN it is unordered (47 R289). -/
def Obligations.RelationOrdersValues : Prop :=
  ∀ a b : Dword,
    (NaNBits a ∨ NaNBits b → relation a b = .un) ∧
    (¬NaNBits a → ¬NaNBits b → ¬InfBits a → ¬InfBits b →
      (fpVal a < fpVal b → relation a b = .lt) ∧ (fpVal a = fpVal b → relation a b = .eq) ∧
      (fpVal b < fpVal a → relation a b = .gt)) ∧
    (InfBits a → ¬NaNBits b → ¬InfBits b → relation a b = if a.getLsbD 31 then .lt else .gt) ∧
    (InfBits a → InfBits b → (a = b → relation a b = .eq) ∧ (a ≠ b → relation a b = if a.getLsbD 31 then .lt else .gt)) ∧
    (¬NaNBits a → ¬NaNBits b → (relation a b = .lt ↔ relation b a = .gt))

/-- An integer converts to its value rounded by 47 R284, with at most PE; one of magnitude up to 2^24 exactly, in every mode, and back to
itself. A number converts to its value rounded to an integer by the mode, ties to even, PE exactly where it is off; a NaN, an infinity and
what falls outside the signed 32 bits to 80000000h with IE (48 R321). -/
def Obligations.IntegerConversionsRound : Prop :=
  (∀ mx : Dword, intToFp mx 0#32 = ⟨0#32, noFlags, noFlags⟩) ∧
  (∀ mx v : Dword, v ≠ 0#32 →
     RoundsTo mx v.toInt (intToFp mx v).res (intToFp mx v).post ∧ (intToFp mx v).pre = noFlags ∧
       (intToFp mx v).post &&& ~~~flagPE = noFlags) ∧
  (∀ (mx v : Dword) (rc : Rounding), -(2 ^ 24) ≤ v.toInt → v.toInt ≤ 2 ^ 24 →
     (intToFp mx v).pre = noFlags ∧ (intToFp mx v).post = noFlags ∧ fpToInt rc (intToFp mx v).res = ⟨v, noFlags, noFlags⟩) ∧
  (∀ (rc : Rounding) (v : Dword), NaNBits v ∨ InfBits v → fpToInt rc v = ⟨0x80000000#32, flagIE, noFlags⟩) ∧
  (∀ (rc : Rounding) (v : Dword), ¬NaNBits v → ¬InfBits v →
     ∃ n : ℤ, RoundsToInt rc ((fpVal v : ℚ) : ℝ) n ∧
       (n < -(2 ^ 31) ∨ 2 ^ 31 - 1 < n → fpToInt rc v = ⟨0x80000000#32, flagIE, noFlags⟩) ∧
       (-(2 ^ 31) ≤ n → n ≤ 2 ^ 31 - 1 →
         fpToInt rc v = ⟨BitVec.ofInt 32 n, noFlags, if fpVal v = n then noFlags else flagPE⟩))

/-! ## Conversions -/

/-- CVTPI2PS and CVTSI2SS, the first of which makes the MMX transition (48 R322, R325). CVTPS2PI and CVTSS2SI by RC, CVTTPS2PI and
CVTTSS2SI truncating whatever RC is; the MMX ones make the MMX transition (48 R323, R324, R326, R327). -/
def Obligations.ConversionResults : Prop :=
  (∀ (s : State) (r : Reg) (rm : RM), xmmReady s →
     (s.x87Pending = false → reachable .read 8 false s rm →
       let e (k : Nat) := intToFp s.mxcsr (elem 32 (srcMm s rm) k)
       let flags := (e 0).post ||| (e 1).post
       noneUnmasked s flags →
         ∃ t, exec (.cvtpi2ps r rm) s = .next t ∧ elem 32 (t.xm r) 0 = (e 0).res ∧ elem 32 (t.xm r) 1 = (e 1).res ∧
           (t.xm r).extractLsb' 64 64 = (s.xm r).extractLsb' 64 64 ∧ t.mxcsr = s.mxcsr ||| flags.setWidth 32 ∧ MmxEntered s t ∧
           (∀ q, q ≠ r → t.xm q = s.xm q) ∧ SameFpr s t ∧ SameGpr s t ∧ t.eflags = s.eflags ∧ SameMem s t ∧ SameSystem s t ∧
           SameDraws s t) ∧
     (reachable .read 4 false s rm →
       let e := intToFp s.mxcsr (srcGp s rm)
       noneUnmasked s e.post → NumericCompletes (.cvtsi2ss r rm) s r e.post fun x =>
         x.extractLsb' 0 32 = e.res ∧ x.extractLsb' 32 96 = (s.xm r).extractLsb' 32 96)) ∧
  (∀ (s : State) (r : Reg) (rm : RM), xmmReady s →
     let toMmx (i : Instr) (rc : Rounding) : Prop :=
       let e (k : Nat) := fpToInt rc (elem 32 (srcXm64 s rm) k)
       let flags := (e 0).pre ||| (e 1).pre ||| (e 0).post ||| (e 1).post
       noneUnmasked s flags →
         ∃ t, exec i s = .next t ∧ elem 32 (t.mm r) 0 = (e 0).res ∧ elem 32 (t.mm r) 1 = (e 1).res ∧
           t.mxcsr = s.mxcsr ||| flags.setWidth 32 ∧ WritesMmFlags s t r
     let toGpr (i : Instr) (rc : Rounding) : Prop :=
       let e := fpToInt rc (srcXm32 s rm)
       noneUnmasked s (e.pre ||| e.post) →
         ∃ t, exec i s = .next t ∧ t.x r = e.res ∧ t.mxcsr = s.mxcsr ||| (e.pre ||| e.post).setWidth 32 ∧ WritesGprFlags s t r
     (s.x87Pending = false → reachable .read 8 false s rm →
       toMmx (.cvtps2pi r rm) (mxRC s.mxcsr) ∧ toMmx (.cvttps2pi r rm) .zero) ∧
     (reachable .read 4 false s rm → toGpr (.cvtss2si r rm) (mxRC s.mxcsr) ∧ toGpr (.cvttss2si r rm) .zero))

/-! ## State management -/

/-- LDMXCSR: a value with a reserved bit set raises #GP(0) and changes nothing, any other is loaded whole (10_state R43; 48 R338). -/
def Obligations.LdmxcsrLoadsOrRaises : Prop :=
  ∀ (s : State) (m : Mem), xmmReady s → reachable .read 4 false s (.mem m) →
    let v := s.mem.readValue (s.lin m) 32 4
    (v &&& 0xFFFF0040#32 ≠ 0#32 → exec (.ldmxcsr m) s = .fault (.gp s)) ∧
    (v &&& 0xFFFF0040#32 = 0#32 →
      ∃ t, exec (.ldmxcsr m) s = .next t ∧ t.mxcsr = v ∧ SameGpr s t ∧ SameFpr s t ∧ SameX87 s t ∧ SameXmm s t ∧
        t.eflags = s.eflags ∧ SameMem s t ∧ SameSystem s t ∧ SameDraws s t)

/-- FXSAVE: the fields of the 512-byte area that 48 R340 gives a content; MXCSR and the XMM registers with CR4.OSFXSR = 1. No register
changes, no byte outside the area. One draw is used for the unspecified bytes (log 20). THE MODEL'S CHOICE (log 21): that FXSAVE completes
with CR4.OSFXSR = 0 at all, the bytes of MXCSR and the XMM registers then being open; 48 R340 and 93 G21 have the model refuse that
case. -/
def Obligations.FxsaveWritesTheImage : Prop :=
  ∀ (s : State) (m : Mem), fxReady s → s.mem.wf → reachable .write 512 true s (.mem m) →
    ∃ t, exec (.fxsave m) s = .next t ∧
      Holds t (s.lin m) 2 s.cwr ∧ Holds t (s.lin m + 2#32) 2 s.swr ∧
      (∀ i < 8, (t.mem.read (s.lin m + 4#32).toNat).getLsbD i = decide (elem 2 s.twr i ≠ 3#2)) ∧
      (∀ j < 8, Holds t (s.lin m + BitVec.ofNat 32 (32 + 16 * j)) 10 (s.fp (tosOf s.swr + BitVec.ofNat 3 j))) ∧
      (s.osfxsr → Holds t (s.lin m + 24#32) 4 s.mxcsr ∧
        ∀ j < 8, Holds t (s.lin m + BitVec.ofNat 32 (160 + 16 * j)) 16 (s.xm (BitVec.ofNat 3 j))) ∧
      XmmWritesMem s t (addresses (s.lin m) 512) ∧ t.draws = s.draws + 1

/-- FXRSTOR: an image whose MXCSR has a reserved bit raises #GP(0) and loads nothing; any other is loaded, the registers in stack order,
the tags from the abridged tags and the classes of the loaded registers (log 22); MXCSR and the XMM registers with CR4.OSFXSR = 1 (48
R341). THE MODEL'S CHOICE (log 21), with CR4.OSFXSR = 0: that FXRSTOR completes at all, with MXCSR and the XMM registers loaded or kept,
and that a reserved bit of the image's MXCSR raises #GP(0) there too; 48 R340 and 93 G21 have the model refuse that case. -/
def Obligations.FxrstorLoadsTheImage : Prop :=
  ∀ (s : State) (m : Mem), fxReady s → reachable .read 512 true s (.mem m) →
    let at' (off w n : Nat) : BitVec w := s.mem.readValue (s.lin m + BitVec.ofNat 32 off) w n
    (at' 24 32 4 &&& 0xFFFF0040#32 ≠ 0#32 → exec (.fxrstor m) s = .fault (.gp s)) ∧
    (at' 24 32 4 &&& 0xFFFF0040#32 = 0#32 →
      ∃ t, exec (.fxrstor m) s = .next t ∧ t.cwr = at' 0 16 2 ∧ t.swr = at' 2 16 2 ∧
        (∀ j < 8, t.fp (tosOf t.swr + BitVec.ofNat 3 j) = at' (32 + 16 * j) 80 10) ∧
        (∀ i < 8, elem 2 t.twr i =
          if (at' 4 8 1 : Byte).getLsbD i = false then 3#2
          else
            let v := t.fp (BitVec.ofNat 3 i)
            if v.extractLsb' 0 79 = 0#79 then 1#2
            else if v.extractLsb' 64 15 = 0#15 ∨ v.extractLsb' 64 15 = 0x7FFF#15 ∨ v.getLsbD 63 = false then 2#2
            else 0#2) ∧
        ((t.mxcsr = at' 24 32 4 ∧ ∀ j < 8, t.xm (BitVec.ofNat 3 j) = at' (160 + 16 * j) 128 16) ∨
          (s.osfxsr = false ∧ t.mxcsr = s.mxcsr ∧ SameXmm s t)) ∧
        SameGpr s t ∧ t.eflags = s.eflags ∧ SameMem s t ∧ SameSystem s t ∧ SameDraws s t)

/-- FXSAVE to M followed by FXRSTOR from M restores the control and status words, MXCSR, the data registers and the XMM registers (the
tags come back as 48 R341 rebuilds them, log 22). -/
def Obligations.FxrstorUndoesFxsave : Prop :=
  ∀ (s : State) (m : Mem), fxReady s → s.osfxsr → s.inv → reachable .write 512 true s (.mem m) →
    reachable .read 512 true s (.mem m) →
    ∃ t u, exec (.fxsave m) s = .next t ∧ exec (.fxrstor m) t = .next u ∧ u.cwr = s.cwr ∧ u.swr = s.swr ∧ u.mxcsr = s.mxcsr ∧
      SameFpr s u ∧ SameXmm s u ∧ SameGpr s u ∧ u.eflags = s.eflags ∧ SameSystem s u

/-! ## Hints and system instructions -/

/-- PREFETCHh and SFENCE change nothing (48 R356, R357). The reserved hints 0F 18 /4 to /7 with a memory operand, which are no row of the
opcode table, decode, and a step over one of at most 15 bytes only moves the pc on (48 R356; 30_encoding R104, R117; log 14; #UD on the
earlier generations: log 31). -/
def Obligations.HintsChangeNothing : Prop :=
  (∀ (s : State) (m : Mem), s.plat.gen = .pentiumIII →
     exec (.prefetchnta m) s = .next s ∧ exec (.prefetcht0 m) s = .next s ∧ exec (.prefetcht1 m) s = .next s ∧
       exec (.prefetcht2 m) s = .next s ∧ exec .sfence s = .next s) ∧
  (∀ (form : MemForm) (cs : CodeSize) (n : Reg) (m : Mem) (rest : List Byte), 4 ≤ n.toNat → m.wf →
     decode cs (encodeRm form cs false 0x18#8 n (.mem m) [] ++ rest) =
       .ok (.reservedHint, (encodeRm form cs false 0x18#8 n (.mem m) []).length)) ∧
  (∀ (s : State) (len : Nat), decode s.plat.codeSize s.fetchBytes = .ok (.reservedHint, len) → len ≤ 15 →
     (s.plat.gen = .pentiumIII → step s = .next { s with pc := s.pc + BitVec.ofNat 32 len }) ∧
     (s.plat.gen ≠ .pentiumIII → step s = .fault (.ud s)))

/-- RDTSC: EDX:EAX is a value above the last one read or written, which it becomes; #GP(0) where CR4.TSD = 1 and CPL is not 0 (49
R362, R364). The model's choices: that one draw is used (log 11), and that the read completes after the value 2^64 - 1, which R364 excludes
(log 15). -/
def Obligations.RdtscReadsAGreaterValue : Prop :=
  ∀ s : State,
    (s.tsd → s.cpl ≠ 0#2 → exec .rdtsc s = .fault (.gp s)) ∧
    (s.tsd = false ∨ s.cpl = 0#2 →
      ∃ t, exec .rdtsc s = .next t ∧ t.x 2#3 ++ t.x 0#3 = t.tscLast ∧
        (s.tscLast ≠ BitVec.allOnes 64 → s.tscLast.toNat < t.tscLast.toNat) ∧
        WritesGprOnly s t (fun q => q = 0#3 ∨ q = 2#3) ∧ t.draws = s.draws + 1)

/-- RDMSR and WRMSR: #GP(0) where CPL is not 0 or ECX names no MSR; the TSC read as by RDTSC, and written with EAX zero-extended, EDX
ignored; another MSR that exists is read as a draw, and its write is refused (49 R363, R364, R367, R368). The model's choices: how many
draws are used (log 11, 16), and that a read of the TSC completes after the value 2^64 - 1, which R364 excludes (log 15). -/
def Obligations.RdmsrAndWrmsrResults : Prop :=
  ∀ s : State,
    (s.cpl ≠ 0#2 ∨ s.plat.msrExists (s.x 1#3) = false → exec .rdmsr s = .fault (.gp s) ∧ exec .wrmsr s = .fault (.gp s)) ∧
    (s.cpl = 0#2 → s.x 1#3 = s.plat.tscNumber →
      (∃ t, exec .rdmsr s = .next t ∧ t.x 2#3 ++ t.x 0#3 = t.tscLast ∧
        (s.tscLast ≠ BitVec.allOnes 64 → s.tscLast.toNat < t.tscLast.toNat) ∧
        WritesGprOnly s t (fun q => q = 0#3 ∨ q = 2#3) ∧ t.draws = s.draws + 1) ∧
      (∃ t, exec .wrmsr s = .next t ∧ t.tscLast.toNat = (s.x 0#3).toNat ∧ WritesGprOnly s t (fun _ => False) ∧
        t.draws = s.draws)) ∧
    (s.cpl = 0#2 → s.x 1#3 ≠ s.plat.tscNumber → s.plat.msrExists (s.x 1#3) →
      (∃ t, exec .rdmsr s = .next t ∧ WritesGprOnly s t (fun q => q = 0#3 ∨ q = 2#3) ∧ t.tscLast = s.tscLast) ∧
      exec .wrmsr s = .refused (.otherMsrWrite (s.x 1#3)))

/-- CPUID at any privilege level: all four registers written; leaf 0 and the feature bits of leaf 1 as 49 R366 constrains them. -/
def Obligations.CpuidResults : Prop :=
  ∀ s : State, ∃ t, exec .cpuid s = .next t ∧ WritesGprOnly s t (fun q => q.toNat < 4) ∧ SameDraws s t ∧
    (s.x 0#3 = 0#32 → t.x 3#3 = 0x756E6547#32 ∧ t.x 2#3 = 0x49656E69#32 ∧ t.x 1#3 = 0x6C65746E#32 ∧
      (s.plat.gen = .pentiumMMX → t.x 0#3 = 1#32) ∧ (s.plat.gen = .pentiumII → t.x 0#3 = 2#32) ∧
      (s.plat.gen = .pentiumIII → t.x 0#3 = 2#32 ∨ t.x 0#3 = 3#32)) ∧
    (s.x 0#3 = 1#32 → (t.x 2#3).getLsbD 4 ∧ (t.x 2#3).getLsbD 5 ∧ (t.x 2#3).getLsbD 23 ∧
      (s.plat.gen = .pentiumMMX → (t.x 2#3).getLsbD 24 = false) ∧ (s.plat.gen = .pentiumIII → (t.x 2#3).getLsbD 24) ∧
      ((t.x 2#3).getLsbD 25 ↔ s.plat.gen = .pentiumIII) ∧ t.x 0#3 = s.plat.signature)
end

