-- ==== Sys2Proof/Laws/Memory.lean ====
section
/-! SUPPORT. Memory: a read after a write, the bytes a write leaves alone, and the canonical form kept by every operation. -/

namespace Sys2Proof.Machine

/-! ### One byte -/

/-- A write leaves every other address alone, whatever the list's form. -/
theorem Memory.read_write_ne (m : Memory) {a a' : Nat} (b : Byte) (h : a' ≠ a) :
    (m.write a b).read a' = m.read a' := by
  induction m with
  | nil =>
    unfold Memory.write
    split <;> simp [Memory.read, Ne.symm h]
  | cons c m ih =>
    unfold Memory.write
    split
    · simp only [Memory.read, ih]
    · split
      · rename_i _ e
        split <;> simp [Memory.read, e, Ne.symm h]
      · split <;> simp [Memory.read, Ne.symm h]

/-- In the form from `lo` up, an address below `lo` is not listed. -/
theorem Memory.read_below {m : Memory} {lo a : Nat} (hm : m.wfFrom lo) (h : a < lo) : m.read a = unlistedByte := by
  induction m generalizing lo with
  | nil => rfl
  | cons c m ih =>
    simp only [Memory.wfFrom, Bool.and_eq_true, decide_eq_true_eq] at hm
    rw [Memory.read, if_neg (by omega)]
    exact ih hm.2 (by omega)

/-- In the form from `lo` up, a byte written reads back. -/
theorem Memory.read_write_self_from {m : Memory} {lo : Nat} (hm : m.wfFrom lo) (a : Nat) (b : Byte) :
    (m.write a b).read a = b := by
  induction m generalizing lo with
  | nil =>
    unfold Memory.write
    split
    · rename_i e; simp [Memory.read, e]
    · simp [Memory.read]
  | cons c m ih =>
    simp only [Memory.wfFrom, Bool.and_eq_true, decide_eq_true_eq] at hm
    unfold Memory.write
    split
    · rw [Memory.read, if_neg (by omega)]; exact ih hm.2
    · split
      · split
        · rename_i e1 e; rw [Memory.read_below hm.2 (by omega), e]
        · simp [Memory.read]
      · split
        · rename_i e1 e2 e
          rw [Memory.read, if_neg e2, Memory.read_below hm.2 (by omega), e]
        · simp [Memory.read]

/-- A byte written reads back (20_memory R80). -/
theorem Memory.read_write_self {m : Memory} (hm : m.wf) (a : Nat) (b : Byte) : (m.write a b).read a = b :=
  Memory.read_write_self_from hm a b

/-- The form from a higher address up is the form from a lower one up. -/
theorem Memory.wfFrom_mono {m : Memory} {lo hi : Nat} (h : lo ≤ hi) (hm : m.wfFrom hi) : m.wfFrom lo := by
  cases m with
  | nil => rfl
  | cons c m =>
    simp only [Memory.wfFrom, Bool.and_eq_true, decide_eq_true_eq] at hm ⊢
    exact ⟨⟨⟨by omega, hm.1.1.2⟩, hm.1.2⟩, hm.2⟩

/-- A byte of the 32-bit space written keeps the form from `lo` up. -/
theorem Memory.write_wfFrom {m : Memory} {lo a : Nat} (hm : m.wfFrom lo) (ha : lo ≤ a) (hb : a < 2 ^ 32) (b : Byte) :
    (m.write a b).wfFrom lo := by
  induction m generalizing lo with
  | nil =>
    unfold Memory.write
    split
    · rfl
    · rename_i e; simp only [Memory.wfFrom, ha, hb]; simpa using e
  | cons c m ih =>
    have hm' := hm
    simp only [Memory.wfFrom, Bool.and_eq_true, decide_eq_true_eq] at hm
    unfold Memory.write
    split
    · rename_i h
      simp only [Memory.wfFrom, Bool.and_eq_true, decide_eq_true_eq]
      exact ⟨hm.1, ih hm.2 (by omega)⟩
    · rename_i h
      split
      · rename_i e
        split
        · exact Memory.wfFrom_mono (by omega) hm.2
        · rename_i ne
          simp only [Memory.wfFrom, Bool.and_eq_true, decide_eq_true_eq]
          exact ⟨⟨⟨ha, hb⟩, ne⟩, by rw [← e]; exact hm.2⟩
      · rename_i e
        split
        · exact hm'
        · rename_i ne
          simp only [Memory.wfFrom, Bool.and_eq_true, decide_eq_true_eq]
          exact ⟨⟨⟨ha, hb⟩, ne⟩, ⟨⟨⟨by omega, hm.1.1.2⟩, hm.1.2⟩, hm.2⟩⟩

/-- A byte written keeps the canonical form. -/
theorem Memory.write_wf {m : Memory} (hm : m.wf) {a : Nat} (ha : a < 2 ^ 32) (b : Byte) : (m.write a b).wf :=
  Memory.write_wfFrom hm (Nat.zero_le _) ha b

/-! ### Byte strings -/

/-- A byte string written keeps the canonical form. -/
theorem Memory.writeBytes_wf {m : Memory} (hm : m.wf) (a : Addr) (bs : List Byte) : (m.writeBytes a bs).wf := by
  induction bs generalizing m a with
  | nil => exact hm
  | cons b bs ih => exact ih (Memory.write_wf hm a.isLt b) _

/-- Single bytes written keep the canonical form. -/
theorem Memory.writeEach_wf {m : Memory} (hm : m.wf) (ws : List (Addr × Byte)) : (m.writeEach ws).wf := by
  induction ws generalizing m with
  | nil => exact hm
  | cons w ws ih => exact ih (Memory.write_wf hm w.1.isLt w.2)

/-- A byte string written leaves every address outside it alone. -/
theorem Memory.read_writeBytes_ne (m : Memory) {a a' : Addr} {bs : List Byte} (h : a' ∉ addresses a bs.length) :
    (m.writeBytes a bs).read a'.toNat = m.read a'.toNat := by
  induction bs generalizing m a with
  | nil => rfl
  | cons b bs ih =>
    simp only [List.length_cons, addresses, List.mem_cons, not_or] at h
    rw [Memory.writeBytes, ih _ h.2]
    exact Memory.read_write_ne _ _ (fun e => h.1 (BitVec.toNat_inj.mp e))

/-- Single bytes written leave every other address alone. -/
theorem Memory.read_writeEach_ne (m : Memory) {a' : Addr} {ws : List (Addr × Byte)} (h : a' ∉ ws.map (·.1)) :
    (m.writeEach ws).read a'.toNat = m.read a'.toNat := by
  induction ws generalizing m with
  | nil => rfl
  | cons w ws ih =>
    simp only [List.map_cons, List.mem_cons, not_or] at h
    rw [Memory.writeEach, ih _ h.2]
    exact Memory.read_write_ne _ _ (fun e => h.1 (BitVec.toNat_inj.mp e))

/-- The address after the k-th one above `a`. -/
theorem addr_succ (a : Addr) (k : Nat) : a + BitVec.ofNat 32 (k + 1) = a + 1#32 + BitVec.ofNat 32 k := by
  rw [BitVec.ofNat_add, BitVec.add_assoc, BitVec.add_comm (BitVec.ofNat 32 k)]

/-- The addresses of an access: the k-th above the first. -/
theorem mem_addresses {a x : Addr} {n : Nat} : x ∈ addresses a n ↔ ∃ k, k < n ∧ x = a + BitVec.ofNat 32 k := by
  induction n generalizing a with
  | zero => simp [addresses]
  | succ n ih =>
    simp only [addresses, List.mem_cons, ih]
    constructor
    · rintro (rfl | ⟨k, hk, rfl⟩)
      · exact ⟨0, by omega, by simp⟩
      · exact ⟨k + 1, by omega, (addr_succ a k).symm⟩
    · rintro ⟨k, hk, rfl⟩
      cases k with
      | zero => left; simp
      | succ k => right; exact ⟨k, by omega, addr_succ a k⟩

/-- The k-th address of an access. -/
theorem addresses_get (a : Addr) (n k : Nat) (h : k < (addresses a n).length) :
    (addresses a n)[k] = a + BitVec.ofNat 32 k := by
  induction n generalizing a k with
  | zero => simp [addresses] at h
  | succ n ih =>
    cases k with
    | zero => simp [addresses]
    | succ k =>
      simp only [addresses, List.length_cons] at h ⊢
      rw [List.getElem_cons_succ, ih _ _ (by omega), addr_succ a k]

/-- The byte strings of an access of at most 2^32 bytes do not overlap themselves. -/
theorem not_mem_addresses_succ {a : Addr} {n : Nat} (h : n < 2 ^ 32) : a ∉ addresses (a + 1#32) n := by
  rw [mem_addresses]
  rintro ⟨k, hk, e⟩
  have e' := congrArg BitVec.toNat e
  have := a.isLt
  simp only [BitVec.toNat_add, BitVec.toNat_ofNat] at e'
  omega

/-- The k-th byte of a byte string written reads back. -/
theorem Memory.read_writeBytes_get {m : Memory} (hm : m.wf) (a : Addr) (bs : List Byte) (hl : bs.length ≤ 2 ^ 32) {k : Nat}
    (hk : k < bs.length) : (m.writeBytes a bs).read (a + BitVec.ofNat 32 k).toNat = bs[k] := by
  induction bs generalizing m a k with
  | nil => simp at hk
  | cons b bs ih =>
    simp only [List.length_cons] at hl hk
    rw [Memory.writeBytes]
    cases k with
    | zero =>
      have : a + BitVec.ofNat 32 0 = a := by simp
      rw [this, Memory.read_writeBytes_ne _ (not_mem_addresses_succ (by omega)), Memory.read_write_self hm]
      rfl
    | succ k =>
      rw [addr_succ a k, ih (Memory.write_wf hm a.isLt b) _ (by omega) (by omega)]
      rfl

/-- What `readBytes` reads: the bytes at the addresses of the access. -/
theorem Memory.readBytes_eq (m : Memory) (a : Addr) (n : Nat) :
    m.readBytes a n = (addresses a n).map fun x => m.read x.toNat := by
  induction n generalizing a with
  | zero => rfl
  | succ n ih => simp [Memory.readBytes, addresses, ih]

@[simp] theorem Memory.readBytes_length (m : Memory) (a : Addr) (n : Nat) : (m.readBytes a n).length = n := by
  induction n generalizing a with
  | zero => rfl
  | succ n ih => simp [Memory.readBytes, ih]

/-- Equal bytes read as equal values. -/
theorem Memory.readValue_congr {m m' : Memory} {a : Addr} {w n : Nat}
    (h : ∀ x ∈ addresses a n, m'.read x.toNat = m.read x.toNat) : m'.readValue a w n = m.readValue a w n := by
  unfold Memory.readValue
  rw [Memory.readBytes_eq, Memory.readBytes_eq, List.map_congr_left h]

/-! ### The bytes of a number -/

@[simp] theorem leBytes_length (n v : Nat) : (leBytes n v).length = n := by
  induction n generalizing v with
  | zero => rfl
  | succ n ih => simp [leBytes, ih]

@[simp] theorem valueBytes_length {w : Nat} (n : Nat) (v : BitVec w) : (valueBytes n v).length = n := leBytes_length n _

/-- The bytes of a number, lowest first, are the number again (20_memory R70). -/
theorem leNat_leBytes (n v : Nat) (h : v < 256 ^ n) : leNat (leBytes n v) = v := by
  induction n generalizing v with
  | zero => simp [leBytes, leNat]; omega
  | succ n ih =>
    rw [leBytes, leNat, ih (v / 256) (by rw [pow_succ] at h; omega)]
    simp only [BitVec.toNat_ofNat]
    omega

/-- Byte k of a number is its k-th digit to the base 256. -/
theorem leBytes_get (n v k : Nat) (h : k < (leBytes n v).length) : (leBytes n v)[k] = BitVec.ofNat 8 (v / 256 ^ k) := by
  induction n generalizing v k with
  | zero => simp [leBytes] at h
  | succ n ih =>
    cases k with
    | zero => simp [leBytes]
    | succ k =>
      simp only [leBytes, List.length_cons] at h ⊢
      rw [List.getElem_cons_succ, ih _ _ (by omega), Nat.div_div_eq_div_mul, pow_succ, Nat.mul_comm 256]

/-- Byte k of a value is its bits 8k+7:8k (20_memory R70). -/
theorem valueBytes_get {w : Nat} (n : Nat) (v : BitVec w) (k : Nat) (h : k < (valueBytes n v).length) :
    (valueBytes n v)[k] = v.extractLsb' (8 * k) 8 := by
  unfold valueBytes at h ⊢
  rw [leBytes_get _ _ _ h]
  apply BitVec.eq_of_toNat_eq
  simp [BitVec.extractLsb'_toNat, Nat.shiftRight_eq_div_pow, Nat.pow_mul]

/-- A value stored reads back (20_memory R70, R80). -/
theorem Memory.readValue_write {w n : Nat} {m : Memory} (hm : m.wf) (a : Addr) (v : BitVec w) (hw : w = 8 * n)
    (hn : n ≤ 2 ^ 32) : (m.writeBytes a (valueBytes n v)).readValue a w n = v := by
  have e : (m.writeBytes a (valueBytes n v)).readBytes a n = valueBytes n v := by
    apply List.ext_getElem
    · simp
    · intro k h1 h2
      have hk : k < n := by simpa using h1
      have := Memory.read_writeBytes_get hm a (valueBytes n v) (by simpa using hn) (k := k) (by simpa using hk)
      rw [← this]
      simp only [Memory.readBytes_eq, List.getElem_map]
      congr 2
      exact addresses_get a n k (by simpa [Memory.readBytes_eq] using h1)
  unfold Memory.readValue
  rw [e]
  unfold valueBytes
  rw [leNat_leBytes]
  · simp
  · subst hw
    have := v.isLt
    rwa [Nat.pow_mul] at this

end Sys2Proof.Machine
end

