-- ==== Sys2Proof/Laws/Decode.lean ====
section
/-! SUPPORT. Reading back what the encoder writes: the ModR/M and SIB fields, the prefixes, the displacement, and a whole memory
operand (30_encoding R102 to R111); and how far each parser reads (R104). -/

namespace Sys2Proof

/-! ### Fields -/

@[simp] theorem fieldMod_packFields (a : BitVec 2) (b c : Reg) : fieldMod (packFields a b c) = a := by
  revert a b c; decide
@[simp] theorem fieldReg_packFields (a : BitVec 2) (b c : Reg) : fieldReg (packFields a b c) = b := by
  revert a b c; decide
@[simp] theorem fieldRm_packFields (a : BitVec 2) (b c : Reg) : fieldRm (packFields a b c) = c := by
  revert a b c; decide

/-! ### Prefixes (R106) -/

/-- The prefixes after a segment override. -/
def Prefixes.withSeg (p : Prefixes) : Option Seg → Prefixes
  | none => p
  | some g => { p with ovr := some g }

/-- A segment override is read as one. -/
theorem scanPrefixes_segPrefix (o : Option Seg) (bs : List Byte) (p : Prefixes) :
    scanPrefixes (segPrefix o ++ bs) p = scanPrefixes bs (p.withSeg o) := by
  cases o with
  | none => rfl
  | some g => cases g <;> rfl

/-- The address-size prefix is read as one. -/
theorem scanPrefixes_sizePrefix (cs : CodeSize) (a : AddrSize) (bs : List Byte) (p : Prefixes) :
    scanPrefixes (sizePrefix cs a ++ bs) p =
      scanPrefixes bs { p with a67 := p.a67 || decide (addrSizeOf cs false ≠ a) } := by
  obtain ⟨o, a67, f3, p66, f2, lock⟩ := p
  cases cs <;> cases a <;> cases a67 <;> rfl

/-- The address size that the prefixes of an address size leave. -/
theorem addrSizeOf_sizePrefix (cs : CodeSize) (a : AddrSize) : addrSizeOf cs (decide (addrSizeOf cs false ≠ a)) = a := by
  cases cs <;> cases a <;> rfl

/-- Prefixes end at 0Fh (R104). -/
theorem scanPrefixes_opcode (bs : List Byte) (p : Prefixes) : scanPrefixes (0x0F#8 :: bs) p = (p, 0x0F#8 :: bs) := rfl

/-! ### Displacements (R108, R110) -/

/-- Four displacement bytes are read back. -/
theorem takeDisp32_dispBytes32 (d : BitVec 32) (bs : List Byte) : takeDisp32 2#2 (dispBytes32 d ++ bs) = .ok (d, bs) := by
  have h : leNat (leBytes 4 d.toNat) = d.toNat := Machine.leNat_leBytes 4 d.toNat (by have := d.isLt; omega)
  have e : dispBytes32 d ++ bs = BitVec.ofNat 8 d.toNat :: BitVec.ofNat 8 (d.toNat / 256) ::
      BitVec.ofNat 8 (d.toNat / 256 / 256) :: BitVec.ofNat 8 (d.toNat / 256 / 256 / 256) :: bs := rfl
  rw [e]
  simp only [takeDisp32, if_neg (show ¬(2#2 = 0#2) by decide), if_neg (show ¬(2#2 = 1#2) by decide)]
  congr 2
  exact (congrArg (BitVec.ofNat 32) h).trans (by simp)

/-- Two displacement bytes are read back. -/
theorem takeDisp16_dispBytes16 (d : BitVec 16) (bs : List Byte) : takeDisp16 2#2 (dispBytes16 d ++ bs) = .ok (d, bs) := by
  have h : leNat (leBytes 2 d.toNat) = d.toNat := Machine.leNat_leBytes 2 d.toNat (by have := d.isLt; omega)
  have e : dispBytes16 d ++ bs = BitVec.ofNat 8 d.toNat :: BitVec.ofNat 8 (d.toNat / 256) :: bs := rfl
  rw [e]
  simp only [takeDisp16, if_neg (show ¬(2#2 = 0#2) by decide), if_neg (show ¬(2#2 = 1#2) by decide)]
  congr 2
  exact (congrArg (BitVec.ofNat 16) h).trans (by simp)

/-- A displacement of 32-bit addressing in any form is read back. -/
theorem takeDisp32_encodeDisp32 (form : DispForm) (bare : Bool) (d : BitVec 32) (bs : List Byte) :
    takeDisp32 (encodeDisp32 form bare d).1 ((encodeDisp32 form bare d).2 ++ bs) = .ok (d, bs) := by
  unfold encodeDisp32
  split
  · split
    · next h => simp only [Bool.and_eq_true, beq_iff_eq] at h; simp [takeDisp32, h.2]
    · exact takeDisp32_dispBytes32 d bs
  · split
    · next h => simpa [takeDisp32] using h
    · exact takeDisp32_dispBytes32 d bs
  · exact takeDisp32_dispBytes32 d bs

/-- A displacement of 16-bit addressing in any form is read back. -/
theorem takeDisp16_encodeDisp16 (form : DispForm) (bare : Bool) (d : BitVec 16) (bs : List Byte) :
    takeDisp16 (encodeDisp16 form bare d).1 ((encodeDisp16 form bare d).2 ++ bs) = .ok (d, bs) := by
  unfold encodeDisp16
  split
  · split
    · next h => simp only [Bool.and_eq_true, beq_iff_eq] at h; simp [takeDisp16, h.2]
    · exact takeDisp16_dispBytes16 d bs
  · split
    · next h => simpa [takeDisp16] using h
    · exact takeDisp16_dispBytes16 d bs
  · exact takeDisp16_dispBytes16 d bs

/-- mod is never 11b before a displacement, and 00b only where the base has a form without one. -/
theorem encodeDisp32_mod (form : DispForm) (bare : Bool) (d : BitVec 32) :
    (encodeDisp32 form bare d).1 ≠ 3#2 ∧ (bare = false → (encodeDisp32 form bare d).1 ≠ 0#2) := by
  unfold encodeDisp32
  split <;> (try split) <;> simp_all

/-- mod is never 11b before a displacement, and 00b only where the base part has a form without one. -/
theorem encodeDisp16_mod (form : DispForm) (bare : Bool) (d : BitVec 16) :
    (encodeDisp16 form bare d).1 ≠ 3#2 ∧ (bare = false → (encodeDisp16 form bare d).1 ≠ 0#2) := by
  unfold encodeDisp16
  split <;> (try split) <;> simp_all

/-- A displacement is at most four bytes. -/
theorem encodeDisp32_length (form : DispForm) (bare : Bool) (d : BitVec 32) : (encodeDisp32 form bare d).2.length ≤ 4 := by
  unfold encodeDisp32 dispBytes32
  split <;> (try split) <;> simp [leBytes]

/-- A displacement of 16-bit addressing is at most two bytes. -/
theorem encodeDisp16_length (form : DispForm) (bare : Bool) (d : BitVec 16) : (encodeDisp16 form bare d).2.length ≤ 2 := by
  unfold encodeDisp16 dispBytes16
  split <;> (try split) <;> simp [leBytes]

/-! ### Memory operands (R108 to R110) -/

/-- The address size a memory operand is written in. -/
def Mem.size : Mem → AddrSize
  | .a32 _ _ _ _ => .a32
  | .a16 _ _ _ => .a16

/-- The segment override of a memory operand. -/
def Mem.ovr : Mem → Option Seg
  | .a32 o _ _ _ => o
  | .a16 o _ _ => o

/-- A memory operand never has mod = 11b. -/
theorem encodeMem_mod (form : MemForm) (m : Mem) : (encodeMem form m).1 ≠ 3#2 := by
  unfold encodeMem
  split <;> (try split) <;> first | exact (encodeDisp32_mod _ _ _).1 | exact (encodeDisp16_mod _ _ _).1 | simp

/-- What follows ModR/M for a memory operand is at most a SIB byte and four displacement bytes (R100). -/
theorem encodeMem_length (form : MemForm) (m : Mem) : (encodeMem form m).2.2.length ≤ 5 := by
  have h32 (bare : Bool) (d : BitVec 32) := encodeDisp32_length form.disp bare d
  have h16 (bare : Bool) (d : BitVec 16) := encodeDisp16_length form.disp bare d
  cases m with
  | a32 o b i d =>
    cases b with
    | none => cases i <;> simp only [encodeMem] <;> (try split) <;> simp [dispBytes32, leBytes]
    | some b =>
      have h := h32 (b != 5#3) d
      cases i <;> simp only [encodeMem] <;> (try split) <;> (try simp only [List.length_cons]) <;> omega
  | a16 o b d =>
    cases b with
    | none => simp [encodeMem, dispBytes16, leBytes]
    | some b => exact (h16 _ _).trans (by omega)

/-- The rm code of a 16-bit base part is read back (R110). -/
@[simp] theorem base16Of_base16Code (b : Base16) : base16Of (base16Code b) = b := by
  cases b <;> rfl

/-- Only BP alone has rm code 110b (R110). -/
theorem base16Code_eq_six (b : Base16) : base16Code b = 6#3 ↔ b = .bp := by
  cases b <;> decide

/-- A 32-bit memory operand in any form is read back (R108, R109). -/
theorem parseMem32_encodeMem (form : MemForm) (o : Option Seg) (b : Option Reg) (i : Option (Reg × BitVec 2)) (d : BitVec 32)
    (bs : List Byte) (h : (Mem.a32 o b i d).wf) :
    parseMem32 o (encodeMem form (.a32 o b i d)).1 (encodeMem form (.a32 o b i d)).2.1
      ((encodeMem form (.a32 o b i d)).2.2 ++ bs) = .ok (.a32 o b i d, bs) := by
  cases b with
  | none =>
    cases i with
    | none =>
      by_cases hs : form.sib = true <;>
        simp [encodeMem, hs, parseMem32, takeDisp32_dispBytes32, bind, Except.bind, pure, Except.pure]
    | some ix =>
      obtain ⟨i, sc⟩ := ix
      have hi : i ≠ 4#3 := by simpa [Mem.wf] using h
      simp [encodeMem, parseMem32, hi, takeDisp32_dispBytes32, bind, Except.bind, pure, Except.pure]
  | some b =>
    have ht := takeDisp32_encodeDisp32 form.disp (b != 5#3) d bs
    have hm : ¬(b = 5#3 ∧ (encodeDisp32 form.disp (b != 5#3) d).1 = 0#2) := fun ⟨hb, h0⟩ =>
      (encodeDisp32_mod form.disp (b != 5#3) d).2 (by simp [hb]) h0
    cases i with
    | none =>
      by_cases hs : (form.sib || b == 4#3) = true
      · simp only [encodeMem, hs, if_true, parseMem32, List.cons_append, fieldReg_packFields, fieldRm_packFields, if_neg hm, ht,
          bind, Except.bind, pure, Except.pure]
      · have hb : b ≠ 4#3 := fun e => hs (by simp [e])
        simp only [encodeMem, if_neg hs, parseMem32, if_neg hb, if_neg hm, ht, bind, Except.bind, pure, Except.pure]
    | some ix =>
      obtain ⟨i, sc⟩ := ix
      have hi : i ≠ 4#3 := by simpa [Mem.wf] using h
      simp only [encodeMem, if_true, parseMem32, List.cons_append, fieldReg_packFields, fieldRm_packFields, fieldMod_packFields,
        if_neg hm, if_neg hi, ht, bind, Except.bind, pure, Except.pure]

/-- A 16-bit memory operand in any form is read back (R110). -/
theorem parseMem16_encodeMem (form : MemForm) (o : Option Seg) (b : Option Base16) (d : BitVec 16) (bs : List Byte) :
    parseMem16 o (encodeMem form (.a16 o b d)).1 (encodeMem form (.a16 o b d)).2.1 ((encodeMem form (.a16 o b d)).2.2 ++ bs) =
      .ok (.a16 o b d, bs) := by
  cases b with
  | none => simp [encodeMem, parseMem16, takeDisp16_dispBytes16, bind, Except.bind, pure, Except.pure]
  | some b =>
    have hm : ¬(base16Code b = 6#3 ∧ (encodeDisp16 form.disp (b != .bp) d).1 = 0#2) := fun ⟨hb, h0⟩ =>
      (encodeDisp16_mod form.disp (b != .bp) d).2 (by simp [(base16Code_eq_six b).mp hb]) h0
    simp only [encodeMem, parseMem16, if_neg hm, takeDisp16_encodeDisp16, base16Of_base16Code, bind, Except.bind, pure, Except.pure]

/-- A memory operand in any form is read back (R108 to R111). -/
theorem parseRM_encodeMem (form : MemForm) (m : Mem) (bs : List Byte) (h : m.wf) :
    parseRM m.size m.ovr (encodeMem form m).1 (encodeMem form m).2.1 ((encodeMem form m).2.2 ++ bs) = .ok (.mem m, bs) := by
  rw [parseRM, if_neg (encodeMem_mod form m)]
  cases m with
  | a32 o b i d => simp [Mem.size, Mem.ovr, parseMem32_encodeMem form o b i d bs h, bind, Except.bind, pure, Except.pure]
  | a16 o b d => simp [Mem.size, Mem.ovr, parseMem16_encodeMem, bind, Except.bind, pure, Except.pure]

/-- The prefixes of a memory operand are read as its override and its address size (R106, R111). -/
theorem scanPrefixes_memPrefix (cs : CodeSize) (m : Mem) (bs : List Byte) (p : Prefixes) :
    scanPrefixes (memPrefix cs m ++ bs) p =
      scanPrefixes bs { p.withSeg m.ovr with a67 := (p.withSeg m.ovr).a67 || decide (addrSizeOf cs false ≠ m.size) } := by
  cases m <;> simp only [memPrefix, List.append_assoc, scanPrefixes_segPrefix, scanPrefixes_sizePrefix] <;> rfl

/-! ### Parsers look at what they take, and at no more (R104) -/

/-- A parser that takes at most `k` bytes, does the same whatever follows them, and fails only where fewer than `k` bytes are there. -/
def Reads {α : Type} (k : Nat) (parse : List Byte → Except DecodeError (α × List Byte)) : Prop :=
  ∀ bs, (∀ x r, parse bs = .ok (x, r) → bs.length ≤ r.length + k ∧ ∀ e, parse (bs ++ e) = .ok (x, r ++ e)) ∧
    (∀ err, parse bs = .error err → err = .outOfBytes ∧ bs.length < k)

/-- Taking nothing. -/
theorem Reads.pure {α : Type} (x : α) : Reads 0 fun bs => .ok (x, bs) := fun bs =>
  ⟨fun _ _ h => by cases h; exact ⟨by omega, fun _ => rfl⟩, fun _ h => by cases h⟩

/-- A parser after another one. -/
theorem Reads.bind {α β : Type} {k m : Nat} {p : List Byte → Except DecodeError (α × List Byte)}
    {q : α → List Byte → Except DecodeError (β × List Byte)} (hp : Reads k p) (hq : ∀ x, Reads m (q x)) :
    Reads (k + m) fun bs => (p bs).bind fun a => q a.1 a.2 := by
  intro bs
  obtain ⟨h1, h2⟩ := hp bs
  dsimp only
  cases hb : p bs with
  | error err =>
    obtain ⟨rfl, hl⟩ := h2 err hb
    exact ⟨fun _ _ h => (by cases h), fun _ h => (by cases h; exact ⟨rfl, by omega⟩)⟩
  | ok a =>
    obtain ⟨x, r⟩ := a
    obtain ⟨hl, hx⟩ := h1 x r hb
    obtain ⟨g1, g2⟩ := hq x r
    refine ⟨fun y t h => ?_, fun err h => ?_⟩
    · obtain ⟨gl, gx⟩ := g1 y t h
      exact ⟨by omega, fun e => by rw [hx e]; exact gx e⟩
    · obtain ⟨ge, gl⟩ := g2 err h
      exact ⟨ge, by omega⟩

/-- A parser that takes a byte first. -/
theorem Reads.cons {α : Type} {k : Nat} {p : List Byte → Except DecodeError (α × List Byte)} (h0 : p [] = .error .outOfBytes)
    (hp : ∀ b, Reads k fun bs => p (b :: bs)) : Reads (k + 1) p := by
  rintro (_ | ⟨b, bs⟩)
  · rw [h0]
    exact ⟨fun _ _ h => (by cases h), fun _ h => (by cases h; exact ⟨rfl, by simp⟩)⟩
  · obtain ⟨g1, g2⟩ := hp b bs
    refine ⟨fun x r h => ?_, fun err h => ?_⟩
    · obtain ⟨gl, gx⟩ := g1 x r h
      exact ⟨by simp only [List.length_cons]; omega, gx⟩
    · obtain ⟨ge, gl⟩ := g2 err h
      exact ⟨ge, by simp only [List.length_cons]; omega⟩

/-- The bound may be greater. -/
theorem Reads.mono {α : Type} {k m : Nat} {p : List Byte → Except DecodeError (α × List Byte)} (h : Reads k p) (hk : k ≤ m) :
    Reads m p := fun bs =>
  ⟨fun x r e => ⟨((h bs).1 x r e).1.trans (by omega), ((h bs).1 x r e).2⟩,
    fun err e => ⟨((h bs).2 err e).1, ((h bs).2 err e).2.trans_le hk⟩⟩

/-- The immediate byte. -/
theorem takeImm_reads : Reads 1 takeImm := Reads.cons rfl fun b => Reads.pure b

/-- A displacement of 32-bit addressing. -/
theorem takeDisp32_reads (mod : BitVec 2) : Reads 4 (takeDisp32 mod) := by
  unfold takeDisp32
  by_cases h0 : mod = 0#2
  · simp only [if_pos h0]; exact (Reads.pure _).mono (by omega)
  · by_cases h1 : mod = 1#2
    · simp only [if_neg h0, if_pos h1]; exact (Reads.cons rfl fun b => Reads.pure _).mono (by omega)
    · simp only [if_neg h0, if_neg h1]
      exact Reads.cons rfl fun _ => Reads.cons rfl fun _ => Reads.cons rfl fun _ => Reads.cons rfl fun _ => Reads.pure _

/-- A displacement of 16-bit addressing. -/
theorem takeDisp16_reads (mod : BitVec 2) : Reads 2 (takeDisp16 mod) := by
  unfold takeDisp16
  by_cases h0 : mod = 0#2
  · simp only [if_pos h0]; exact (Reads.pure _).mono (by omega)
  · by_cases h1 : mod = 1#2
    · simp only [if_neg h0, if_pos h1]; exact (Reads.cons rfl fun b => Reads.pure _).mono (by omega)
    · simp only [if_neg h0, if_neg h1]
      exact Reads.cons rfl fun _ => Reads.cons rfl fun _ => Reads.pure _

/-- SIB and displacement. -/
theorem parseMem32_reads (ovr : Option Seg) (mod : BitVec 2) (rm : Reg) : Reads 5 (parseMem32 ovr mod rm) := by
  have disp (mod : BitVec 2) (b : Option Reg) (i : Option (Reg × BitVec 2)) :=
    (takeDisp32_reads mod).bind fun d => Reads.pure (Mem.a32 ovr b i d)
  by_cases h4 : rm = 4#3
  · refine Reads.cons (by simp [parseMem32, h4]) fun sib => ?_
    simp only [parseMem32, if_pos h4]
    split
    · exact disp _ _ _
    · exact disp _ _ _
  · unfold parseMem32
    simp only [if_neg h4]
    split
    · exact (disp _ _ _).mono (by omega)
    · exact (disp _ _ _).mono (by omega)

/-- A displacement. -/
theorem parseMem16_reads (ovr : Option Seg) (mod : BitVec 2) (rm : Reg) : Reads 2 (parseMem16 ovr mod rm) := by
  have disp (mod : BitVec 2) (b : Option Base16) := (takeDisp16_reads mod).bind fun d => Reads.pure (Mem.a16 ovr b d)
  unfold parseMem16
  split
  · exact disp _ _
  · exact disp _ _

/-- What follows ModR/M for an r/m operand. -/
theorem parseRM_reads (size : AddrSize) (ovr : Option Seg) (mod : BitVec 2) (rm : Reg) : Reads 5 (parseRM size ovr mod rm) := by
  unfold parseRM
  split
  · exact (Reads.pure _).mono (by omega)
  · cases size
    · exact (((parseMem16_reads ovr mod rm).bind fun m => Reads.pure (RM.mem m))).mono (by omega)
    · exact ((parseMem32_reads ovr mod rm).bind fun m => Reads.pure (RM.mem m))

/-- After the opcode an instruction has at most seven bytes (R100). -/
theorem parseForm_reads (size : AddrSize) (ovr : Option Seg) (f : Form) : Reads 7 (parseForm size ovr f) := by
  unfold parseForm
  split
  · refine Reads.cons rfl fun m => ?_
    have rm := parseRM_reads size ovr (fieldMod m) (fieldRm m)
    cases f.hasImm
    · exact (rm.bind fun rm => Reads.pure (f.build size ovr (fieldReg m) rm 0#8)).mono (by omega)
    · exact rm.bind fun rm => takeImm_reads.bind fun imm => Reads.pure (f.build size ovr (fieldReg m) rm imm)
  · exact (Reads.pure _).mono (by omega)

/-- The prefixes of a string are its first bytes, as many as `prefixRun` counts (R104). -/
theorem scanPrefixes_length (bs : List Byte) (p : Prefixes) (byteAt : Nat → Byte) (k : Nat)
    (h : ∀ (j : Nat) (hj : j < bs.length), byteAt (k + j) = bs[j]) :
    (scanPrefixes bs p).2.length + prefixRun byteAt bs.length k = bs.length := by
  induction bs generalizing p k with
  | nil => rfl
  | cons b bs ih =>
    have hb : byteAt k = b := h 0 (by simp)
    have step (p' : Prefixes) := ih p' (k + 1) fun j hj => by
      have := h (j + 1) (by simp; omega)
      simpa [Nat.add_assoc, Nat.add_comm 1 j] using this
    have same : (notePrefix p b).isSome = (notePrefix {} b).isSome := by
      simp only [notePrefix, apply_ite Option.isSome, Option.isSome_some, Option.isSome_none]
    simp only [scanPrefixes, prefixRun, List.length_cons, hb]
    cases hp : notePrefix p b with
    | none => rw [hp] at same; simp [← same]
    | some p' => rw [hp] at same; simp only [← same]; have := step p'; simp; omega

end Sys2Proof
end

