-- ==== Sys2Proof/Laws/Float.lean ====
section
/-! SUPPORT. The value of a single (47 R282): what Safety.lean says of it, and what the model computes with. -/

namespace Sys2Proof.Machine

/-- val(v) is `fpUnits` units of 2^-149 (47 R282). -/
theorem fpVal_eq (v : Dword) : fpVal v = fpUnits v * 2 ^ (-149 : ℤ) := by
  have key : ∀ n e : ℕ, e ≠ 0 → (n : ℚ) * 2 ^ ((e : ℤ) - 150) = (n * 2 ^ (e - 1) : ℕ) * 2 ^ (-149 : ℤ) := fun n e he => by
    obtain ⟨k, rfl⟩ := Nat.exists_eq_succ_of_ne_zero he
    push_cast
    rw [mul_assoc, ← zpow_natCast, ← zpow_add₀ (by norm_num)]
    congr 2
    omega
  by_cases he : fpExp v = 0
  · have h : fpVal v = (if v.getLsbD 31 then -1 else 1) * (fpFrac v : ℚ) * 2 ^ (-149 : ℤ) := by
      unfold fpVal; exact if_pos he
    rw [h, fpUnits, fpMag, fpMan, if_pos he, he]
    by_cases hs : v.getLsbD 31 = true <;> simp [fpSign, hs]
  · have h : fpVal v = (if v.getLsbD 31 then -1 else 1) * (2 ^ 23 + (fpFrac v : ℚ)) * 2 ^ ((fpExp v : ℤ) - 150) := by
      unfold fpVal; exact if_neg he
    have k := key (2 ^ 23 + fpFrac v) (fpExp v) he
    rw [h, mul_assoc, show (2 ^ 23 + (fpFrac v : ℚ)) = ((2 ^ 23 + fpFrac v : ℕ) : ℚ) by push_cast; rfl, k, fpUnits, fpMag, fpMan, if_neg he]
    by_cases hs : v.getLsbD 31 = true <;> simp [fpSign, hs]

/-- The values of two singles stand to each other as their units do (47 R282). -/
theorem fpVal_lt_iff (a b : Dword) : fpVal a < fpVal b ↔ fpUnits a < fpUnits b := by
  rw [fpVal_eq, fpVal_eq, mul_lt_mul_iff_left₀ (by positivity), Int.cast_lt]

/-- Two singles have one value exactly where their units agree (47 R282). -/
theorem fpVal_eq_iff (a b : Dword) : fpVal a = fpVal b ↔ fpUnits a = fpUnits b := by
  rw [fpVal_eq, fpVal_eq, mul_left_inj' (by positivity), Int.cast_inj]

end Sys2Proof.Machine
end

