-- ==== Sys2Proof/Laws/State.lean ====
section
/-! SUPPORT. One lemma per field per update of State, and what a register access reads after an update, so that no proof unfolds a
record update. -/

namespace Sys2Proof.Machine

/-! ### `setX` -/

@[simp] theorem State.setX_pc (s : State) (r : Reg) (v : Dword) : (s.setX r v).pc = s.pc := rfl
@[simp] theorem State.setX_eflags (s : State) (r : Reg) (v : Dword) : (s.setX r v).eflags = s.eflags := rfl
@[simp] theorem State.setX_segs (s : State) (r : Reg) (v : Dword) : (s.setX r v).segs = s.segs := rfl
@[simp] theorem State.setX_fpr (s : State) (r : Reg) (v : Dword) : (s.setX r v).fpr = s.fpr := rfl
@[simp] theorem State.setX_cwr (s : State) (r : Reg) (v : Dword) : (s.setX r v).cwr = s.cwr := rfl
@[simp] theorem State.setX_swr (s : State) (r : Reg) (v : Dword) : (s.setX r v).swr = s.swr := rfl
@[simp] theorem State.setX_twr (s : State) (r : Reg) (v : Dword) : (s.setX r v).twr = s.twr := rfl
@[simp] theorem State.setX_x87Pending (s : State) (r : Reg) (v : Dword) : (s.setX r v).x87Pending = s.x87Pending := rfl
@[simp] theorem State.setX_xmm (s : State) (r : Reg) (v : Dword) : (s.setX r v).xmm = s.xmm := rfl
@[simp] theorem State.setX_mxcsr (s : State) (r : Reg) (v : Dword) : (s.setX r v).mxcsr = s.mxcsr := rfl
@[simp] theorem State.setX_cr0 (s : State) (r : Reg) (v : Dword) : (s.setX r v).cr0 = s.cr0 := rfl
@[simp] theorem State.setX_cr4 (s : State) (r : Reg) (v : Dword) : (s.setX r v).cr4 = s.cr4 := rfl
@[simp] theorem State.setX_cpl (s : State) (r : Reg) (v : Dword) : (s.setX r v).cpl = s.cpl := rfl
@[simp] theorem State.setX_tscLast (s : State) (r : Reg) (v : Dword) : (s.setX r v).tscLast = s.tscLast := rfl
@[simp] theorem State.setX_mem (s : State) (r : Reg) (v : Dword) : (s.setX r v).mem = s.mem := rfl
@[simp] theorem State.setX_plat (s : State) (r : Reg) (v : Dword) : (s.setX r v).plat = s.plat := rfl
@[simp] theorem State.setX_draws (s : State) (r : Reg) (v : Dword) : (s.setX r v).draws = s.draws := rfl
@[simp] theorem State.setX_fp (s : State) (r : Reg) (v : Dword) (q : Reg) : (s.setX r v).fp q = s.fp q := rfl
@[simp] theorem State.setX_xm (s : State) (r : Reg) (v : Dword) (q : Reg) : (s.setX r v).xm q = s.xm q := rfl
@[simp] theorem State.setX_mm (s : State) (r : Reg) (v : Dword) (q : Reg) : (s.setX r v).mm q = s.mm q := rfl

/-! ### `setMm` -/

@[simp] theorem State.setMm_gpr (s : State) (r : Reg) (v : Qword) : (s.setMm r v).gpr = s.gpr := rfl
@[simp] theorem State.setMm_pc (s : State) (r : Reg) (v : Qword) : (s.setMm r v).pc = s.pc := rfl
@[simp] theorem State.setMm_eflags (s : State) (r : Reg) (v : Qword) : (s.setMm r v).eflags = s.eflags := rfl
@[simp] theorem State.setMm_segs (s : State) (r : Reg) (v : Qword) : (s.setMm r v).segs = s.segs := rfl
@[simp] theorem State.setMm_cwr (s : State) (r : Reg) (v : Qword) : (s.setMm r v).cwr = s.cwr := rfl
@[simp] theorem State.setMm_swr (s : State) (r : Reg) (v : Qword) : (s.setMm r v).swr = s.swr := rfl
@[simp] theorem State.setMm_twr (s : State) (r : Reg) (v : Qword) : (s.setMm r v).twr = s.twr := rfl
@[simp] theorem State.setMm_x87Pending (s : State) (r : Reg) (v : Qword) : (s.setMm r v).x87Pending = s.x87Pending := rfl
@[simp] theorem State.setMm_xmm (s : State) (r : Reg) (v : Qword) : (s.setMm r v).xmm = s.xmm := rfl
@[simp] theorem State.setMm_mxcsr (s : State) (r : Reg) (v : Qword) : (s.setMm r v).mxcsr = s.mxcsr := rfl
@[simp] theorem State.setMm_cr0 (s : State) (r : Reg) (v : Qword) : (s.setMm r v).cr0 = s.cr0 := rfl
@[simp] theorem State.setMm_cr4 (s : State) (r : Reg) (v : Qword) : (s.setMm r v).cr4 = s.cr4 := rfl
@[simp] theorem State.setMm_cpl (s : State) (r : Reg) (v : Qword) : (s.setMm r v).cpl = s.cpl := rfl
@[simp] theorem State.setMm_tscLast (s : State) (r : Reg) (v : Qword) : (s.setMm r v).tscLast = s.tscLast := rfl
@[simp] theorem State.setMm_mem (s : State) (r : Reg) (v : Qword) : (s.setMm r v).mem = s.mem := rfl
@[simp] theorem State.setMm_plat (s : State) (r : Reg) (v : Qword) : (s.setMm r v).plat = s.plat := rfl
@[simp] theorem State.setMm_draws (s : State) (r : Reg) (v : Qword) : (s.setMm r v).draws = s.draws := rfl
@[simp] theorem State.setMm_x (s : State) (r : Reg) (v : Qword) (q : Reg) : (s.setMm r v).x q = s.x q := rfl
@[simp] theorem State.setMm_xm (s : State) (r : Reg) (v : Qword) (q : Reg) : (s.setMm r v).xm q = s.xm q := rfl

/-! ### `setXm` -/

@[simp] theorem State.setXm_gpr (s : State) (r : Reg) (v : Xword) : (s.setXm r v).gpr = s.gpr := rfl
@[simp] theorem State.setXm_pc (s : State) (r : Reg) (v : Xword) : (s.setXm r v).pc = s.pc := rfl
@[simp] theorem State.setXm_eflags (s : State) (r : Reg) (v : Xword) : (s.setXm r v).eflags = s.eflags := rfl
@[simp] theorem State.setXm_segs (s : State) (r : Reg) (v : Xword) : (s.setXm r v).segs = s.segs := rfl
@[simp] theorem State.setXm_fpr (s : State) (r : Reg) (v : Xword) : (s.setXm r v).fpr = s.fpr := rfl
@[simp] theorem State.setXm_cwr (s : State) (r : Reg) (v : Xword) : (s.setXm r v).cwr = s.cwr := rfl
@[simp] theorem State.setXm_swr (s : State) (r : Reg) (v : Xword) : (s.setXm r v).swr = s.swr := rfl
@[simp] theorem State.setXm_twr (s : State) (r : Reg) (v : Xword) : (s.setXm r v).twr = s.twr := rfl
@[simp] theorem State.setXm_x87Pending (s : State) (r : Reg) (v : Xword) : (s.setXm r v).x87Pending = s.x87Pending := rfl
@[simp] theorem State.setXm_mxcsr (s : State) (r : Reg) (v : Xword) : (s.setXm r v).mxcsr = s.mxcsr := rfl
@[simp] theorem State.setXm_cr0 (s : State) (r : Reg) (v : Xword) : (s.setXm r v).cr0 = s.cr0 := rfl
@[simp] theorem State.setXm_cr4 (s : State) (r : Reg) (v : Xword) : (s.setXm r v).cr4 = s.cr4 := rfl
@[simp] theorem State.setXm_cpl (s : State) (r : Reg) (v : Xword) : (s.setXm r v).cpl = s.cpl := rfl
@[simp] theorem State.setXm_tscLast (s : State) (r : Reg) (v : Xword) : (s.setXm r v).tscLast = s.tscLast := rfl
@[simp] theorem State.setXm_mem (s : State) (r : Reg) (v : Xword) : (s.setXm r v).mem = s.mem := rfl
@[simp] theorem State.setXm_plat (s : State) (r : Reg) (v : Xword) : (s.setXm r v).plat = s.plat := rfl
@[simp] theorem State.setXm_draws (s : State) (r : Reg) (v : Xword) : (s.setXm r v).draws = s.draws := rfl
@[simp] theorem State.setXm_x (s : State) (r : Reg) (v : Xword) (q : Reg) : (s.setXm r v).x q = s.x q := rfl
@[simp] theorem State.setXm_fp (s : State) (r : Reg) (v : Xword) (q : Reg) : (s.setXm r v).fp q = s.fp q := rfl
@[simp] theorem State.setXm_mm (s : State) (r : Reg) (v : Xword) (q : Reg) : (s.setXm r v).mm q = s.mm q := rfl

/-! ### `mmxEnter` -/

@[simp] theorem State.mmxEnter_gpr (s : State) : (s.mmxEnter).gpr = s.gpr := rfl
@[simp] theorem State.mmxEnter_pc (s : State) : (s.mmxEnter).pc = s.pc := rfl
@[simp] theorem State.mmxEnter_eflags (s : State) : (s.mmxEnter).eflags = s.eflags := rfl
@[simp] theorem State.mmxEnter_segs (s : State) : (s.mmxEnter).segs = s.segs := rfl
@[simp] theorem State.mmxEnter_fpr (s : State) : (s.mmxEnter).fpr = s.fpr := rfl
@[simp] theorem State.mmxEnter_cwr (s : State) : (s.mmxEnter).cwr = s.cwr := rfl
@[simp] theorem State.mmxEnter_x87Pending (s : State) : (s.mmxEnter).x87Pending = s.x87Pending := rfl
@[simp] theorem State.mmxEnter_xmm (s : State) : (s.mmxEnter).xmm = s.xmm := rfl
@[simp] theorem State.mmxEnter_mxcsr (s : State) : (s.mmxEnter).mxcsr = s.mxcsr := rfl
@[simp] theorem State.mmxEnter_cr0 (s : State) : (s.mmxEnter).cr0 = s.cr0 := rfl
@[simp] theorem State.mmxEnter_cr4 (s : State) : (s.mmxEnter).cr4 = s.cr4 := rfl
@[simp] theorem State.mmxEnter_cpl (s : State) : (s.mmxEnter).cpl = s.cpl := rfl
@[simp] theorem State.mmxEnter_tscLast (s : State) : (s.mmxEnter).tscLast = s.tscLast := rfl
@[simp] theorem State.mmxEnter_mem (s : State) : (s.mmxEnter).mem = s.mem := rfl
@[simp] theorem State.mmxEnter_plat (s : State) : (s.mmxEnter).plat = s.plat := rfl
@[simp] theorem State.mmxEnter_draws (s : State) : (s.mmxEnter).draws = s.draws := rfl
@[simp] theorem State.mmxEnter_x (s : State) (q : Reg) : (s.mmxEnter).x q = s.x q := rfl
@[simp] theorem State.mmxEnter_fp (s : State) (q : Reg) : (s.mmxEnter).fp q = s.fp q := rfl
@[simp] theorem State.mmxEnter_xm (s : State) (q : Reg) : (s.mmxEnter).xm q = s.xm q := rfl
@[simp] theorem State.mmxEnter_mm (s : State) (q : Reg) : (s.mmxEnter).mm q = s.mm q := rfl

/-! ### `emptyMmx` -/

@[simp] theorem State.emptyMmx_gpr (s : State) : (s.emptyMmx).gpr = s.gpr := rfl
@[simp] theorem State.emptyMmx_pc (s : State) : (s.emptyMmx).pc = s.pc := rfl
@[simp] theorem State.emptyMmx_eflags (s : State) : (s.emptyMmx).eflags = s.eflags := rfl
@[simp] theorem State.emptyMmx_segs (s : State) : (s.emptyMmx).segs = s.segs := rfl
@[simp] theorem State.emptyMmx_fpr (s : State) : (s.emptyMmx).fpr = s.fpr := rfl
@[simp] theorem State.emptyMmx_cwr (s : State) : (s.emptyMmx).cwr = s.cwr := rfl
@[simp] theorem State.emptyMmx_x87Pending (s : State) : (s.emptyMmx).x87Pending = s.x87Pending := rfl
@[simp] theorem State.emptyMmx_xmm (s : State) : (s.emptyMmx).xmm = s.xmm := rfl
@[simp] theorem State.emptyMmx_mxcsr (s : State) : (s.emptyMmx).mxcsr = s.mxcsr := rfl
@[simp] theorem State.emptyMmx_cr0 (s : State) : (s.emptyMmx).cr0 = s.cr0 := rfl
@[simp] theorem State.emptyMmx_cr4 (s : State) : (s.emptyMmx).cr4 = s.cr4 := rfl
@[simp] theorem State.emptyMmx_cpl (s : State) : (s.emptyMmx).cpl = s.cpl := rfl
@[simp] theorem State.emptyMmx_tscLast (s : State) : (s.emptyMmx).tscLast = s.tscLast := rfl
@[simp] theorem State.emptyMmx_mem (s : State) : (s.emptyMmx).mem = s.mem := rfl
@[simp] theorem State.emptyMmx_plat (s : State) : (s.emptyMmx).plat = s.plat := rfl
@[simp] theorem State.emptyMmx_draws (s : State) : (s.emptyMmx).draws = s.draws := rfl
@[simp] theorem State.emptyMmx_x (s : State) (q : Reg) : (s.emptyMmx).x q = s.x q := rfl
@[simp] theorem State.emptyMmx_fp (s : State) (q : Reg) : (s.emptyMmx).fp q = s.fp q := rfl
@[simp] theorem State.emptyMmx_xm (s : State) (q : Reg) : (s.emptyMmx).xm q = s.xm q := rfl
@[simp] theorem State.emptyMmx_mm (s : State) (q : Reg) : (s.emptyMmx).mm q = s.mm q := rfl

/-! ### `orMxcsr` -/

@[simp] theorem State.orMxcsr_gpr (s : State) (f : FpFlags) : (s.orMxcsr f).gpr = s.gpr := rfl
@[simp] theorem State.orMxcsr_pc (s : State) (f : FpFlags) : (s.orMxcsr f).pc = s.pc := rfl
@[simp] theorem State.orMxcsr_eflags (s : State) (f : FpFlags) : (s.orMxcsr f).eflags = s.eflags := rfl
@[simp] theorem State.orMxcsr_segs (s : State) (f : FpFlags) : (s.orMxcsr f).segs = s.segs := rfl
@[simp] theorem State.orMxcsr_fpr (s : State) (f : FpFlags) : (s.orMxcsr f).fpr = s.fpr := rfl
@[simp] theorem State.orMxcsr_cwr (s : State) (f : FpFlags) : (s.orMxcsr f).cwr = s.cwr := rfl
@[simp] theorem State.orMxcsr_swr (s : State) (f : FpFlags) : (s.orMxcsr f).swr = s.swr := rfl
@[simp] theorem State.orMxcsr_twr (s : State) (f : FpFlags) : (s.orMxcsr f).twr = s.twr := rfl
@[simp] theorem State.orMxcsr_x87Pending (s : State) (f : FpFlags) : (s.orMxcsr f).x87Pending = s.x87Pending := rfl
@[simp] theorem State.orMxcsr_xmm (s : State) (f : FpFlags) : (s.orMxcsr f).xmm = s.xmm := rfl
@[simp] theorem State.orMxcsr_cr0 (s : State) (f : FpFlags) : (s.orMxcsr f).cr0 = s.cr0 := rfl
@[simp] theorem State.orMxcsr_cr4 (s : State) (f : FpFlags) : (s.orMxcsr f).cr4 = s.cr4 := rfl
@[simp] theorem State.orMxcsr_cpl (s : State) (f : FpFlags) : (s.orMxcsr f).cpl = s.cpl := rfl
@[simp] theorem State.orMxcsr_tscLast (s : State) (f : FpFlags) : (s.orMxcsr f).tscLast = s.tscLast := rfl
@[simp] theorem State.orMxcsr_mem (s : State) (f : FpFlags) : (s.orMxcsr f).mem = s.mem := rfl
@[simp] theorem State.orMxcsr_plat (s : State) (f : FpFlags) : (s.orMxcsr f).plat = s.plat := rfl
@[simp] theorem State.orMxcsr_draws (s : State) (f : FpFlags) : (s.orMxcsr f).draws = s.draws := rfl
@[simp] theorem State.orMxcsr_x (s : State) (f : FpFlags) (q : Reg) : (s.orMxcsr f).x q = s.x q := rfl
@[simp] theorem State.orMxcsr_fp (s : State) (f : FpFlags) (q : Reg) : (s.orMxcsr f).fp q = s.fp q := rfl
@[simp] theorem State.orMxcsr_xm (s : State) (f : FpFlags) (q : Reg) : (s.orMxcsr f).xm q = s.xm q := rfl
@[simp] theorem State.orMxcsr_mm (s : State) (f : FpFlags) (q : Reg) : (s.orMxcsr f).mm q = s.mm q := rfl

/-! ### `drawn` -/

@[simp] theorem State.drawn_gpr (s : State) : (s.drawn).gpr = s.gpr := rfl
@[simp] theorem State.drawn_pc (s : State) : (s.drawn).pc = s.pc := rfl
@[simp] theorem State.drawn_eflags (s : State) : (s.drawn).eflags = s.eflags := rfl
@[simp] theorem State.drawn_segs (s : State) : (s.drawn).segs = s.segs := rfl
@[simp] theorem State.drawn_fpr (s : State) : (s.drawn).fpr = s.fpr := rfl
@[simp] theorem State.drawn_cwr (s : State) : (s.drawn).cwr = s.cwr := rfl
@[simp] theorem State.drawn_swr (s : State) : (s.drawn).swr = s.swr := rfl
@[simp] theorem State.drawn_twr (s : State) : (s.drawn).twr = s.twr := rfl
@[simp] theorem State.drawn_x87Pending (s : State) : (s.drawn).x87Pending = s.x87Pending := rfl
@[simp] theorem State.drawn_xmm (s : State) : (s.drawn).xmm = s.xmm := rfl
@[simp] theorem State.drawn_mxcsr (s : State) : (s.drawn).mxcsr = s.mxcsr := rfl
@[simp] theorem State.drawn_cr0 (s : State) : (s.drawn).cr0 = s.cr0 := rfl
@[simp] theorem State.drawn_cr4 (s : State) : (s.drawn).cr4 = s.cr4 := rfl
@[simp] theorem State.drawn_cpl (s : State) : (s.drawn).cpl = s.cpl := rfl
@[simp] theorem State.drawn_tscLast (s : State) : (s.drawn).tscLast = s.tscLast := rfl
@[simp] theorem State.drawn_mem (s : State) : (s.drawn).mem = s.mem := rfl
@[simp] theorem State.drawn_plat (s : State) : (s.drawn).plat = s.plat := rfl
@[simp] theorem State.drawn_x (s : State) (q : Reg) : (s.drawn).x q = s.x q := rfl
@[simp] theorem State.drawn_fp (s : State) (q : Reg) : (s.drawn).fp q = s.fp q := rfl
@[simp] theorem State.drawn_xm (s : State) (q : Reg) : (s.drawn).xm q = s.xm q := rfl
@[simp] theorem State.drawn_mm (s : State) (q : Reg) : (s.drawn).mm q = s.mm q := rfl

/-! ### `tscRead` -/

@[simp] theorem State.tscRead_gpr (s : State) : (s.tscRead).gpr = s.gpr := rfl
@[simp] theorem State.tscRead_pc (s : State) : (s.tscRead).pc = s.pc := rfl
@[simp] theorem State.tscRead_eflags (s : State) : (s.tscRead).eflags = s.eflags := rfl
@[simp] theorem State.tscRead_segs (s : State) : (s.tscRead).segs = s.segs := rfl
@[simp] theorem State.tscRead_fpr (s : State) : (s.tscRead).fpr = s.fpr := rfl
@[simp] theorem State.tscRead_cwr (s : State) : (s.tscRead).cwr = s.cwr := rfl
@[simp] theorem State.tscRead_swr (s : State) : (s.tscRead).swr = s.swr := rfl
@[simp] theorem State.tscRead_twr (s : State) : (s.tscRead).twr = s.twr := rfl
@[simp] theorem State.tscRead_x87Pending (s : State) : (s.tscRead).x87Pending = s.x87Pending := rfl
@[simp] theorem State.tscRead_xmm (s : State) : (s.tscRead).xmm = s.xmm := rfl
@[simp] theorem State.tscRead_mxcsr (s : State) : (s.tscRead).mxcsr = s.mxcsr := rfl
@[simp] theorem State.tscRead_cr0 (s : State) : (s.tscRead).cr0 = s.cr0 := rfl
@[simp] theorem State.tscRead_cr4 (s : State) : (s.tscRead).cr4 = s.cr4 := rfl
@[simp] theorem State.tscRead_cpl (s : State) : (s.tscRead).cpl = s.cpl := rfl
@[simp] theorem State.tscRead_mem (s : State) : (s.tscRead).mem = s.mem := rfl
@[simp] theorem State.tscRead_plat (s : State) : (s.tscRead).plat = s.plat := rfl
@[simp] theorem State.tscRead_x (s : State) (q : Reg) : (s.tscRead).x q = s.x q := rfl
@[simp] theorem State.tscRead_fp (s : State) (q : Reg) : (s.tscRead).fp q = s.fp q := rfl
@[simp] theorem State.tscRead_xm (s : State) (q : Reg) : (s.tscRead).xm q = s.xm q := rfl
@[simp] theorem State.tscRead_mm (s : State) (q : Reg) : (s.tscRead).mm q = s.mm q := rfl

/-! ### `advance` -/

@[simp] theorem State.advance_gpr (s : State) (n : Nat) : (s.advance n).gpr = s.gpr := rfl
@[simp] theorem State.advance_eflags (s : State) (n : Nat) : (s.advance n).eflags = s.eflags := rfl
@[simp] theorem State.advance_segs (s : State) (n : Nat) : (s.advance n).segs = s.segs := rfl
@[simp] theorem State.advance_fpr (s : State) (n : Nat) : (s.advance n).fpr = s.fpr := rfl
@[simp] theorem State.advance_cwr (s : State) (n : Nat) : (s.advance n).cwr = s.cwr := rfl
@[simp] theorem State.advance_swr (s : State) (n : Nat) : (s.advance n).swr = s.swr := rfl
@[simp] theorem State.advance_twr (s : State) (n : Nat) : (s.advance n).twr = s.twr := rfl
@[simp] theorem State.advance_x87Pending (s : State) (n : Nat) : (s.advance n).x87Pending = s.x87Pending := rfl
@[simp] theorem State.advance_xmm (s : State) (n : Nat) : (s.advance n).xmm = s.xmm := rfl
@[simp] theorem State.advance_mxcsr (s : State) (n : Nat) : (s.advance n).mxcsr = s.mxcsr := rfl
@[simp] theorem State.advance_cr0 (s : State) (n : Nat) : (s.advance n).cr0 = s.cr0 := rfl
@[simp] theorem State.advance_cr4 (s : State) (n : Nat) : (s.advance n).cr4 = s.cr4 := rfl
@[simp] theorem State.advance_cpl (s : State) (n : Nat) : (s.advance n).cpl = s.cpl := rfl
@[simp] theorem State.advance_tscLast (s : State) (n : Nat) : (s.advance n).tscLast = s.tscLast := rfl
@[simp] theorem State.advance_mem (s : State) (n : Nat) : (s.advance n).mem = s.mem := rfl
@[simp] theorem State.advance_plat (s : State) (n : Nat) : (s.advance n).plat = s.plat := rfl
@[simp] theorem State.advance_draws (s : State) (n : Nat) : (s.advance n).draws = s.draws := rfl
@[simp] theorem State.advance_x (s : State) (n : Nat) (q : Reg) : (s.advance n).x q = s.x q := rfl
@[simp] theorem State.advance_fp (s : State) (n : Nat) (q : Reg) : (s.advance n).fp q = s.fp q := rfl
@[simp] theorem State.advance_xm (s : State) (n : Nat) (q : Reg) : (s.advance n).xm q = s.xm q := rfl
@[simp] theorem State.advance_mm (s : State) (n : Nat) (q : Reg) : (s.advance n).mm q = s.mm q := rfl

/-! ### Written fields -/

@[simp] theorem State.mmxEnter_twr (s : State) : s.mmxEnter.twr = 0#16 := rfl
@[simp] theorem State.mmxEnter_swr (s : State) : s.mmxEnter.swr = clearTos s.swr := rfl
@[simp] theorem State.emptyMmx_twr (s : State) : s.emptyMmx.twr = 0xFFFF#16 := rfl
@[simp] theorem State.emptyMmx_swr (s : State) : s.emptyMmx.swr = clearTos s.swr := rfl
@[simp] theorem State.orMxcsr_mxcsr (s : State) (f : FpFlags) : (s.orMxcsr f).mxcsr = s.mxcsr ||| f.setWidth 32 := rfl
@[simp] theorem State.drawn_draws (s : State) : s.drawn.draws = s.draws + 1 := rfl
@[simp] theorem State.tscRead_draws (s : State) : s.tscRead.draws = s.draws + 1 := rfl
@[simp] theorem State.tscRead_tscLast (s : State) : s.tscRead.tscLast = s.nextTsc := rfl
@[simp] theorem State.advance_pc (s : State) (n : Nat) : (s.advance n).pc = s.pc + BitVec.ofNat 32 n := rfl

/-! ### Registers read after a register is written -/

/-- The entry of a register file that was written. -/
theorem vector_get_set_self {α : Type} (v : Vector α 8) (r : Reg) (a : α) :
    (v.set r.toNat a r.isLt)[r.toNat]'(r.isLt) = a := by
  rw [Vector.getElem_set]; simp

/-- Another entry of a register file. -/
theorem vector_get_set_ne {α : Type} (v : Vector α 8) {r q : Reg} (a : α) (h : q ≠ r) :
    (v.set r.toNat a r.isLt)[q.toNat]'(q.isLt) = v[q.toNat]'(q.isLt) := by
  rw [Vector.getElem_set]
  simp only [BitVec.toNat_inj, ite_eq_right_iff]
  intro e; exact absurd e.symm h

@[simp] theorem State.setX_x_self (s : State) (r : Reg) (v : Dword) : (s.setX r v).x r = v := vector_get_set_self _ _ _
theorem State.setX_x_ne (s : State) {r q : Reg} (v : Dword) (h : q ≠ r) : (s.setX r v).x q = s.x q :=
  vector_get_set_ne _ _ h
@[simp] theorem State.setMm_fp_self (s : State) (r : Reg) (v : Qword) : (s.setMm r v).fp r = mmxImage v :=
  vector_get_set_self _ _ _
theorem State.setMm_fp_ne (s : State) {r q : Reg} (v : Qword) (h : q ≠ r) : (s.setMm r v).fp q = s.fp q :=
  vector_get_set_ne _ _ h
@[simp] theorem State.setXm_xm_self (s : State) (r : Reg) (v : Xword) : (s.setXm r v).xm r = v := vector_get_set_self _ _ _
theorem State.setXm_xm_ne (s : State) {r q : Reg} (v : Xword) (h : q ≠ r) : (s.setXm r v).xm q = s.xm q :=
  vector_get_set_ne _ _ h

/-- The data of an MMX write reads back (10_state R31, R32). -/
@[simp] theorem mmxImage_low (v : Qword) : (mmxImage v).setWidth 64 = v := by
  show ((0xFFFF#16 ++ v : BitVec (16 + 64))).setWidth 64 = v
  apply BitVec.eq_of_getLsbD_eq
  intro i h
  rw [BitVec.getLsbD_setWidth, BitVec.getLsbD_append]
  simp [h]

/-- An MMX write leaves ones in bits 79:64 (10_state R31). -/
@[simp] theorem mmxImage_high (v : Qword) : (mmxImage v).extractLsb' 64 16 = 0xFFFF#16 := by
  unfold mmxImage
  exact BitVec.extractLsb'_append_eq_left

@[simp] theorem State.setMm_mm_self (s : State) (r : Reg) (v : Qword) : (s.setMm r v).mm r = v := by
  unfold State.mm; rw [State.setMm_fp_self]; exact mmxImage_low v

/-- `clearTos` clears SWR.TOS and keeps the rest (10_state R30). -/
theorem clearTos_rest (swr : Word) : clearTos swr &&& 0xC7FF#16 = swr &&& 0xC7FF#16 := by
  unfold clearTos; rw [BitVec.and_assoc]; rfl

/-! ### `launch` -/

@[simp] theorem State.launch_gpr (any : State) (cpl : BitVec 2) (tsd : Bool) (codeBase : Addr) :
    (State.launch any cpl tsd codeBase).gpr = any.gpr := rfl
@[simp] theorem State.launch_eflags (any : State) (cpl : BitVec 2) (tsd : Bool) (codeBase : Addr) :
    (State.launch any cpl tsd codeBase).eflags = any.eflags := rfl
@[simp] theorem State.launch_fpr (any : State) (cpl : BitVec 2) (tsd : Bool) (codeBase : Addr) :
    (State.launch any cpl tsd codeBase).fpr = any.fpr := rfl
@[simp] theorem State.launch_cwr (any : State) (cpl : BitVec 2) (tsd : Bool) (codeBase : Addr) :
    (State.launch any cpl tsd codeBase).cwr = any.cwr := rfl
@[simp] theorem State.launch_xmm (any : State) (cpl : BitVec 2) (tsd : Bool) (codeBase : Addr) :
    (State.launch any cpl tsd codeBase).xmm = any.xmm := rfl
@[simp] theorem State.launch_tscLast (any : State) (cpl : BitVec 2) (tsd : Bool) (codeBase : Addr) :
    (State.launch any cpl tsd codeBase).tscLast = any.tscLast := rfl
@[simp] theorem State.launch_mem (any : State) (cpl : BitVec 2) (tsd : Bool) (codeBase : Addr) :
    (State.launch any cpl tsd codeBase).mem = any.mem := rfl
@[simp] theorem State.launch_draws (any : State) (cpl : BitVec 2) (tsd : Bool) (codeBase : Addr) :
    (State.launch any cpl tsd codeBase).draws = any.draws := rfl
@[simp] theorem State.launch_pc (any : State) (cpl : BitVec 2) (tsd : Bool) (codeBase : Addr) :
    (State.launch any cpl tsd codeBase).pc = codeBase := rfl
@[simp] theorem State.launch_twr (any : State) (cpl : BitVec 2) (tsd : Bool) (codeBase : Addr) :
    (State.launch any cpl tsd codeBase).twr = 0xFFFF#16 := rfl
@[simp] theorem State.launch_x87Pending (any : State) (cpl : BitVec 2) (tsd : Bool) (codeBase : Addr) :
    (State.launch any cpl tsd codeBase).x87Pending = false := rfl
@[simp] theorem State.launch_mxcsr (any : State) (cpl : BitVec 2) (tsd : Bool) (codeBase : Addr) :
    (State.launch any cpl tsd codeBase).mxcsr = 0x00001F80#32 := rfl
@[simp] theorem State.launch_cpl (any : State) (cpl : BitVec 2) (tsd : Bool) (codeBase : Addr) :
    (State.launch any cpl tsd codeBase).cpl = cpl := rfl
@[simp] theorem State.launch_segs (any : State) (cpl : BitVec 2) (tsd : Bool) (codeBase : Addr) :
    (State.launch any cpl tsd codeBase).segs = any.segs.launch cpl := rfl
@[simp] theorem State.launch_regions (any : State) (cpl : BitVec 2) (tsd : Bool) (codeBase : Addr) :
    (State.launch any cpl tsd codeBase).plat.regions = any.plat.regions := rfl
@[simp] theorem State.launch_msrs (any : State) (cpl : BitVec 2) (tsd : Bool) (codeBase : Addr) :
    (State.launch any cpl tsd codeBase).plat.msrs = any.plat.msrs := rfl
@[simp] theorem State.launch_codeLen (any : State) (cpl : BitVec 2) (tsd : Bool) (codeBase : Addr) :
    (State.launch any cpl tsd codeBase).plat.codeLen = any.plat.codeLen := rfl

end Sys2Proof.Machine
end

