-- ==== Sys2Proof/Laws/Ops.lean ====
section
/-! SUPPORT. What each shared operation can do, said once: the checks, one memory access, the frames, and deciding the floating-point
exceptions. A proof about an instruction cites these and unfolds none of the operations. -/

namespace Sys2Proof.Machine

/-! ### Outcomes -/

@[simp] theorem outcome_ok (s : State) : Effect.outcome (.ok s) = .next s := rfl
@[simp] theorem outcome_fault (f : Fault) : Effect.outcome (.error (.fault f)) = .fault f := rfl
@[simp] theorem outcome_refused (r : Refusal) : Effect.outcome (.error (.refused r)) = .refused r := rfl

/-- A next state comes from an effect that completed. -/
theorem outcome_next {e : Effect} {t : State} : e.outcome = .next t ↔ e = .ok t := by
  unfold Effect.outcome
  split <;> simp

/-- A fault comes from an effect that raised. -/
theorem outcome_eq_fault {e : Effect} {f : Fault} : e.outcome = .fault f ↔ e = .error (.fault f) := by
  unfold Effect.outcome
  split <;> simp

/-- A sequence that completes: its first part did. -/
theorem bind_ok {α β : Type} {x : Except Stop α} {f : α → Except Stop β} {b : β} :
    (x >>= f) = .ok b ↔ ∃ a, x = .ok a ∧ f a = .ok b := by
  cases x with
  | error e => exact ⟨(fun h => by cases h), (fun ⟨_, h, _⟩ => by cases h)⟩
  | ok a => exact ⟨fun h => ⟨a, rfl, h⟩, fun ⟨_, h, h'⟩ => by cases h; exact h'⟩

/-- A sequence that stops: in its first part, or after it. -/
theorem bind_error {α β : Type} {x : Except Stop α} {f : α → Except Stop β} {e : Stop} :
    (x >>= f) = .error e ↔ x = .error e ∨ ∃ a, x = .ok a ∧ f a = .error e := by
  cases x with
  | error e' =>
    exact ⟨fun h => .inl (by cases h; rfl), fun h => by
      rcases h with h | ⟨_, h, _⟩
      · cases h; rfl
      · cases h⟩
  | ok a =>
    exact ⟨fun h => .inr ⟨a, rfl, h⟩, fun h => by
      rcases h with h | ⟨_, h, h'⟩
      · cases h
      · cases h; exact h'⟩

@[simp] theorem ok_bind {α β : Type} (a : α) (f : α → Except Stop β) : (Except.ok a >>= f) = f a := rfl
@[simp] theorem error_bind {α β : Type} (e : Stop) (f : α → Except Stop β) : (Except.error e >>= f) = .error e := rfl
@[simp] theorem pure_ok {α : Type} (a : α) : (pure a : Except Stop α) = .ok a := rfl

/-! ### Raising -/

/-- A stop whose state, if it is a fault, is `s` (60_exceptions R396). -/
def Stop.At (s : State) : Stop → Prop
  | .fault f => f.state = s
  | .refused _ => True

/-- A raise is a fault whose state is the one it was raised in (60_exceptions R395). -/
theorem raise_error {α : Type} {e : Exception} {s : State} {p : Stop} (h : (raise e s : Except Stop α) = .error p) : p.At s := by
  cases e <;> (cases h; rfl)

/-- A raise never completes. -/
theorem raise_ok {α : Type} {e : Exception} {s : State} {a : α} : (raise e s : Except Stop α) ≠ .ok a := by
  cases e <;> nofun

theorem raiseIf_ok {c : Bool} {e : Exception} {s : State} {u : Unit} : raiseIf c e s = .ok u ↔ c = false := by
  unfold raiseIf
  cases c
  · exact ⟨fun _ => rfl, fun _ => rfl⟩
  · exact ⟨fun h => absurd h raise_ok, nofun⟩

@[simp] theorem raiseIf_false (e : Exception) (s : State) : raiseIf false e s = .ok () := rfl
@[simp] theorem raiseIf_true (e : Exception) (s : State) : raiseIf true e s = raise e s := rfl

theorem raiseIf_error {c : Bool} {e : Exception} {s : State} {p : Stop} (h : raiseIf c e s = .error p) : p.At s := by
  unfold raiseIf at h
  split at h
  · exact raise_error h
  · cases h

/-! ### The common checks -/

/-- `MmxCheck` passes exactly when none of its conditions holds (60_exceptions R383). -/
theorem mmxCheck_ok {since : Since} {s : State} {u : Unit} : mmxCheck since s = .ok u ↔ mmxReady since s = true := by
  simp only [mmxCheck, bind_ok, raiseIf_ok, mmxReady, Bool.and_eq_true, Bool.not_eq_true', exists_and_left, and_assoc]
  simp

theorem mmxCheck_error {since : Since} {s : State} {p : Stop} (h : mmxCheck since s = .error p) : p.At s := by
  simp only [mmxCheck, bind_error] at h
  rcases h with h | ⟨_, _, h | ⟨_, _, h | ⟨_, _, h⟩⟩⟩ <;> exact raiseIf_error h

/-- `XmmCheck` passes exactly when none of its conditions holds (60_exceptions R384). -/
theorem xmmCheck_ok {s : State} {u : Unit} : xmmCheck s = .ok u ↔ xmmReady s = true := by
  simp only [xmmCheck, bind_ok, raiseIf_ok, xmmReady, Bool.and_eq_true, Bool.not_eq_true', exists_and_left, and_assoc]
  simp

theorem xmmCheck_error {s : State} {p : Stop} (h : xmmCheck s = .error p) : p.At s := by
  simp only [xmmCheck, bind_error] at h
  rcases h with h | ⟨_, _, h | ⟨_, _, h | ⟨_, _, h⟩⟩⟩ <;> exact raiseIf_error h

theorem xmmMmxCheck_ok {s : State} {u : Unit} :
    xmmMmxCheck s = .ok u ↔ xmmReady s = true ∧ s.x87Pending = false := by
  simp only [xmmMmxCheck, bind_ok, xmmCheck_ok, raiseIf_ok]
  simp

theorem xmmMmxCheck_error {s : State} {p : Stop} (h : xmmMmxCheck s = .error p) : p.At s := by
  simp only [xmmMmxCheck, bind_error] at h
  rcases h with h | ⟨_, _, h⟩
  · exact xmmCheck_error h
  · exact raiseIf_error h

theorem genCheck_ok {since : Since} {s : State} {u : Unit} : genCheck since s = .ok u ↔ present since s.plat.gen = true := by
  simp [genCheck, raiseIf_ok]

/-! ### One memory access -/

theorem checkAdmit_ok {acc : Access} {s : State} {as : List Addr} {u : Unit} :
    checkAdmit acc s as = .ok u ↔ ∀ a ∈ as, memAdmit s.plat acc a = true := by
  induction as with
  | nil => simp [checkAdmit]
  | cons a as ih =>
    unfold checkAdmit
    by_cases h : memAdmit s.plat acc a = true
    · simp [h, ih]
    · simp only [h, if_false, Bool.false_eq_true]
      exact ⟨fun e => absurd e raise_ok, fun e => absurd (e a (by simp)) h⟩

/-- The first byte that `MemAdmit` shuts out raises #PF (20_memory R76). -/
theorem checkAdmit_first {acc : Access} {s : State} {a : Addr} {pre post : List Addr}
    (hp : ∀ b ∈ pre, memAdmit s.plat acc b = true) (ha : memAdmit s.plat acc a = false) :
    checkAdmit acc s (pre ++ a :: post) = raise (.pf a (pageFaultCode acc s a)) s := by
  induction pre with
  | nil => simp [checkAdmit, ha]
  | cons b bs ih =>
    simp only [List.mem_cons, forall_eq_or_imp] at hp
    simp [checkAdmit, hp.1, ih hp.2]

theorem checkAdmit_error {acc : Access} {s : State} {as : List Addr} {p : Stop} (h : checkAdmit acc s as = .error p) :
    p.At s := by
  induction as with
  | nil => cases h
  | cons a as ih =>
    unfold checkAdmit at h
    split at h
    · exact ih h
    · exact raise_error h

theorem checkDevice_ok {s : State} {as : List Addr} {u : Unit} :
    checkDevice s as = .ok u ↔ ∀ a ∈ as, inDevice s.plat a = false := by
  induction as with
  | nil => simp [checkDevice]
  | cons a as ih =>
    unfold checkDevice
    by_cases h : inDevice s.plat a = true
    · simp only [h, if_true]
      exact ⟨nofun, fun e => absurd (e a (by simp)) (by simp [h])⟩
    · simp [h, ih]

/-- The first byte in a device range is refused (20_memory R78). -/
theorem checkDevice_first {s : State} {a : Addr} {pre post : List Addr} (hp : ∀ b ∈ pre, inDevice s.plat b = false)
    (ha : inDevice s.plat a = true) : checkDevice s (pre ++ a :: post) = refuse (.deviceAccess a) := by
  induction pre with
  | nil => simp [checkDevice, ha]
  | cons b bs ih =>
    simp only [List.mem_cons, forall_eq_or_imp] at hp
    simp [checkDevice, hp.1, ih hp.2]

theorem checkDevice_error {s : State} {as : List Addr} {p : Stop} (h : checkDevice s as = .error p) : p.At s := by
  induction as with
  | nil => cases h
  | cons a as ih =>
    unfold checkDevice at h
    split at h
    · cases h; trivial
    · exact ih h

theorem checkCode_ok {s : State} {as : List Addr} {u : Unit} :
    checkCode s as = .ok u ↔ ∀ a ∈ as, inCode s.plat a = false := by
  induction as with
  | nil => simp [checkCode]
  | cons a as ih =>
    unfold checkCode
    by_cases h : inCode s.plat a = true
    · simp only [h, if_true]
      exact ⟨nofun, fun e => absurd (e a (by simp)) (by simp [h])⟩
    · simp [h, ih]

/-- The first byte of a store in the program is refused (20_memory R92). -/
theorem checkCode_first {s : State} {a : Addr} {pre post : List Addr} (hp : ∀ b ∈ pre, inCode s.plat b = false)
    (ha : inCode s.plat a = true) : checkCode s (pre ++ a :: post) = refuse (.storeToCode a) := by
  induction pre with
  | nil => simp [checkCode, ha]
  | cons b bs ih =>
    simp only [List.mem_cons, forall_eq_or_imp] at hp
    simp [checkCode, hp.1, ih hp.2]

theorem checkCode_error {s : State} {as : List Addr} {p : Stop} (h : checkCode s as = .error p) : p.At s := by
  induction as with
  | nil => cases h
  | cons a as ih =>
    unfold checkCode at h
    split at h
    · cases h; trivial
    · exact ih h

/-- The checks of an access pass exactly when every byte is open (20_memory R76, R78, R92). -/
theorem checkBytes_ok {acc : Access} {s : State} {as : List Addr} {u : Unit} :
    checkBytes acc s as = .ok u ↔ as.all (byteOpen s.plat acc) = true := by
  simp only [checkBytes, bind_ok, checkAdmit_ok, checkDevice_ok, List.all_eq_true, byteOpen, Bool.and_eq_true,
    Bool.not_eq_true', Bool.or_eq_true]
  cases acc
  · constructor
    · rintro ⟨_, h1, _, h2, _⟩ a ha
      exact ⟨⟨h1 a ha, h2 a ha⟩, .inl rfl⟩
    · intro h
      exact ⟨(), fun a ha => (h a ha).1.1, (), fun a ha => (h a ha).1.2, rfl⟩
  · simp only [checkCode_ok]
    constructor
    · rintro ⟨_, h1, _, h2, h3⟩ a ha
      exact ⟨⟨h1 a ha, h2 a ha⟩, .inr (h3 a ha)⟩
    · intro h
      refine ⟨(), fun a ha => (h a ha).1.1, (), fun a ha => (h a ha).1.2, fun a ha => ?_⟩
      rcases (h a ha).2 with h | h
      · cases h
      · exact h

theorem checkBytes_error {acc : Access} {s : State} {as : List Addr} {p : Stop} (h : checkBytes acc s as = .error p) :
    p.At s := by
  simp only [checkBytes, bind_error] at h
  rcases h with h | ⟨_, _, h | ⟨_, _, h⟩⟩
  · exact checkAdmit_error h
  · exact checkDevice_error h
  · cases acc
    · cases h
    · exact checkCode_error h

/-- `MemCheck` passes exactly when the address is aligned where it must be and every byte is open (20_memory R75, R76). -/
theorem memCheck_ok {acc : Access} {al : Bool} {s : State} {a : Addr} {n : Nat} {u : Unit} :
    memCheck acc al s a n = .ok u ↔ (!al || aligned16 a) = true ∧ accessible acc s a n = true := by
  simp only [memCheck, bind_ok, raiseIf_ok, checkBytes_ok, aligned16, accessible, exists_and_left]
  cases al <;> simp [bne]

theorem memCheck_error {acc : Access} {al : Bool} {s : State} {a : Addr} {n : Nat} {p : Stop}
    (h : memCheck acc al s a n = .error p) : p.At s := by
  simp only [memCheck, bind_error] at h
  rcases h with h | ⟨_, _, h⟩
  · exact raiseIf_error h
  · exact checkBytes_error h

/-- A load reads the bytes, and only after its checks passed. -/
theorem load_ok {w n : Nat} {al : Bool} {s : State} {a : Addr} {v : BitVec w} :
    load w n al s a = .ok v ↔ ((!al || aligned16 a) = true ∧ accessible .read s a n = true) ∧ v = s.mem.readValue a w n := by
  simp only [load, bind_ok, memCheck_ok, pure_ok]
  constructor
  · rintro ⟨_, h, e⟩; cases e; exact ⟨h, rfl⟩
  · rintro ⟨h, rfl⟩; exact ⟨(), h, rfl⟩

theorem load_error {w n : Nat} {al : Bool} {s : State} {a : Addr} {p : Stop} (h : load w n al s a = .error p) : p.At s := by
  simp only [load, bind_error] at h
  rcases h with h | ⟨_, _, h⟩
  · exact memCheck_error h
  · cases h

/-- A store writes the bytes and nothing else, and only after its checks passed. -/
theorem store_ok {w n : Nat} {al : Bool} {s t : State} {a : Addr} {v : BitVec w} :
    store n al s a v = .ok t ↔ ((!al || aligned16 a) = true ∧ accessible .write s a n = true) ∧
      t = { s with mem := s.mem.writeBytes a (valueBytes n v) } := by
  simp only [store, bind_ok, memCheck_ok, pure_ok]
  constructor
  · rintro ⟨_, h, e⟩; cases e; exact ⟨h, rfl⟩
  · rintro ⟨h, rfl⟩; exact ⟨(), h, rfl⟩

theorem store_error {w n : Nat} {al : Bool} {s : State} {a : Addr} {v : BitVec w} {p : Stop}
    (h : store n al s a v = .error p) : p.At s := by
  simp only [store, bind_error] at h
  rcases h with h | ⟨_, _, h⟩
  · exact memCheck_error h
  · cases h

/-- The r/m operand is read exactly when it is reachable, and gives its value (20_memory R73). -/
theorem rmRead_ok {w n : Nat} {al : Bool} {f : Reg → BitVec w} {s : State} {rm : RM} {v : BitVec w} :
    rmRead w n al f s rm = .ok v ↔ reachable .read n al s rm = true ∧ v = sourceValue w n f s rm := by
  cases rm with
  | reg q =>
    simp only [rmRead, reachable, sourceValue, true_and]
    exact ⟨fun h => by cases h; rfl, fun h => by rw [h]⟩
  | mem m => simp only [rmRead, reachable, sourceValue, load_ok, Bool.and_eq_true]

theorem rmRead_error {w n : Nat} {al : Bool} {f : Reg → BitVec w} {s : State} {rm : RM} {p : Stop}
    (h : rmRead w n al f s rm = .error p) : p.At s := by
  cases rm with
  | reg q => cases h
  | mem m => exact load_error h

theorem rmWrite_error {w n : Nat} {al : Bool} {f : State → Reg → BitVec w → State} {s : State} {rm : RM} {v : BitVec w} {p : Stop}
    (h : rmWrite n al f s rm v = .error p) : p.At s := by
  cases rm with
  | reg q => cases h
  | mem m => exact store_error h

/-! ### Frames -/

/-- The MMX binary frame answers exactly this (40 R144). -/
theorem mmxBinary_ok {w : Nat} {since : Since} {read : State → RM → Except Stop (BitVec w)} {f : Qword → BitVec w → Qword}
    {s t : State} {r : Reg} {rm : RM} :
    mmxBinary since read f s r rm = .ok t ↔
      mmxReady since s = true ∧ ∃ v, read s rm = .ok v ∧ t = (s.setMm r (f (s.mm r) v)).mmxEnter := by
  simp only [mmxBinary, bind_ok, mmxCheck_ok, pure_ok]
  constructor
  · rintro ⟨_, h, v, hv, e⟩; cases e; exact ⟨h, v, hv, rfl⟩
  · rintro ⟨h, v, hv, rfl⟩; exact ⟨(), h, v, hv, rfl⟩

/-- The MMX unary frame answers exactly this. -/
theorem mmxUnary_ok {since : Since} {f : Qword → Qword} {s t : State} {r : Reg} :
    mmxUnary since f s r = .ok t ↔ mmxReady since s = true ∧ t = (s.setMm r (f (s.mm r))).mmxEnter := by
  simp only [mmxUnary, bind_ok, mmxCheck_ok, pure_ok]
  constructor
  · rintro ⟨_, h, e⟩; cases e; exact ⟨h, rfl⟩
  · rintro ⟨h, rfl⟩; exact ⟨(), h, rfl⟩

/-- The MMX frame with a general register as destination answers exactly this. -/
theorem mmxToGpr_ok {since : Since} {f : Qword → Dword} {s t : State} {r q : Reg} :
    mmxToGpr since f s r q = .ok t ↔ mmxReady since s = true ∧ t = (s.setX r (f (s.mm q))).mmxEnter := by
  simp only [mmxToGpr, bind_ok, mmxCheck_ok, pure_ok]
  constructor
  · rintro ⟨_, h, e⟩; cases e; exact ⟨h, rfl⟩
  · rintro ⟨h, rfl⟩; exact ⟨(), h, rfl⟩

/-- The MMX storing frame answers exactly this. -/
theorem mmxStore_ok {w n : Nat} {since : Since} {f : State → Reg → BitVec w → State} {s t : State} {rm : RM} {v : BitVec w} :
    mmxStore since n f s rm v = .ok t ↔
      mmxReady since s = true ∧ ∃ u, rmWrite n false f s rm v = .ok u ∧ t = u.mmxEnter := by
  simp only [mmxStore, bind_ok, mmxCheck_ok, pure_ok]
  constructor
  · rintro ⟨_, h, u, hu, e⟩; cases e; exact ⟨h, u, hu, rfl⟩
  · rintro ⟨h, u, hu, rfl⟩; exact ⟨(), h, u, hu, rfl⟩

/-- The XMM binary frame answers exactly this (46 R271). -/
theorem xmmBinary_ok {w : Nat} {read : State → RM → Except Stop (BitVec w)} {f : Xword → BitVec w → Xword} {s t : State}
    {r : Reg} {rm : RM} :
    xmmBinary read f s r rm = .ok t ↔
      xmmReady s = true ∧ ∃ v, read s rm = .ok v ∧ t = s.setXm r (f (s.xm r) v) := by
  simp only [xmmBinary, bind_ok, xmmCheck_ok, pure_ok]
  constructor
  · rintro ⟨_, h, v, hv, e⟩; cases e; exact ⟨h, v, hv, rfl⟩
  · rintro ⟨h, v, hv, rfl⟩; exact ⟨(), h, v, hv, rfl⟩

/-- The XMM storing frame answers exactly this. -/
theorem xmmStore_ok {w n : Nat} {al : Bool} {f : State → Reg → BitVec w → State} {s t : State} {rm : RM} {v : BitVec w} :
    xmmStore n al f s rm v = .ok t ↔ xmmReady s = true ∧ rmWrite n al f s rm v = .ok t := by
  simp only [xmmStore, bind_ok, xmmCheck_ok]
  simp

/-! ### Deciding the floating-point exceptions -/

/-- The state with flags recorded differs in MXCSR only. -/
def FlagsOnly (s t : State) : Prop := ∃ f : FpFlags, t = s.orMxcsr f

theorem simdFault_error {α : Type} {s : State} {p : Stop} (h : (simdFault s : Except Stop α) = .error p) : p.At s := by
  unfold simdFault at h
  split at h <;> exact raise_error h

theorem simdFault_ok {α : Type} {s : State} {a : α} : (simdFault s : Except Stop α) ≠ .ok a := by
  unfold simdFault
  split <;> exact raise_ok

/-- Flags recorded twice are recorded once, united. -/
theorem orMxcsr_orMxcsr (s : State) (f g : FpFlags) : (s.orMxcsr f).orMxcsr g = s.orMxcsr (f ||| g) := by
  simp only [State.orMxcsr, BitVec.or_assoc, ← BitVec.setWidth_or]

/-- The exceptions let the instruction go on exactly when no signalled flag is unmasked, and all flags are then recorded
(47 R288). -/
theorem simdDecide_ok {s t : State} {pre post : FpFlags} :
    simdDecide s pre post = .ok t ↔
      unmasked s.mxcsr pre = false ∧ unmasked s.mxcsr post = false ∧ t = s.orMxcsr (pre ||| post) := by
  unfold simdDecide
  rw [orMxcsr_orMxcsr]
  split
  · rename_i h
    exact ⟨fun e => absurd e simdFault_ok, fun e => by simp [h] at e⟩
  · rename_i h
    split
    · rename_i h'
      exact ⟨fun e => absurd e simdFault_ok, fun e => by simp [h'] at e⟩
    · rename_i h'
      exact ⟨fun e => by cases e; exact ⟨by simpa using h, by simpa using h', rfl⟩, fun ⟨_, _, e⟩ => by rw [e]⟩

/-- A floating-point fault carries the state with flags recorded and nothing else changed (60_exceptions R396). -/
theorem simdDecide_error {s : State} {pre post : FpFlags} {p : Stop} (h : simdDecide s pre post = .error p) :
    ∃ u, FlagsOnly s u ∧ p.At u := by
  unfold simdDecide at h
  rw [orMxcsr_orMxcsr] at h
  split at h
  · exact ⟨_, ⟨_, rfl⟩, simdFault_error h⟩
  · split at h
    · exact ⟨_, ⟨_, rfl⟩, simdFault_error h⟩
    · cases h

/-- A numeric result is written exactly after the exceptions were decided (47 R288). -/
theorem finish_ok {α : Type} {s t : State} {c : Signalled α} {write : State → α → State} :
    finish s c write = .ok t ↔
      unmasked s.mxcsr c.pre = false ∧ unmasked s.mxcsr c.post = false ∧ t = write (s.orMxcsr (c.pre ||| c.post)) c.res := by
  simp only [finish, bind_ok, simdDecide_ok, pure_ok]
  constructor
  · rintro ⟨u, ⟨h1, h2, rfl⟩, e⟩; cases e; exact ⟨h1, h2, rfl⟩
  · rintro ⟨h1, h2, rfl⟩; exact ⟨_, ⟨h1, h2, rfl⟩, rfl⟩

theorem finish_error {α : Type} {s : State} {c : Signalled α} {write : State → α → State} {p : Stop}
    (h : finish s c write = .error p) : ∃ u, FlagsOnly s u ∧ p.At u := by
  simp only [finish, bind_error] at h
  rcases h with h | ⟨_, _, h⟩
  · exact simdDecide_error h
  · cases h

/-- The operand of CMPPS and CMPSS is there exactly where it can be read and the predicate is no reserved one (47 R289). -/
theorem withPredicate_ok {w : Nat} {imm : Byte} {read : State → RM → Except Stop (BitVec w)} {s : State} {rm : RM} {v : BitVec w} :
    withPredicate imm read s rm = .ok v ↔ read s rm = .ok v ∧ imm.toNat ≤ 7 := by
  simp only [withPredicate, bind_ok]
  constructor
  · rintro ⟨u, h, e⟩
    split at e
    · cases e
    · next hi => cases e; exact ⟨h, by omega⟩
  · rintro ⟨h, hi⟩
    exact ⟨v, h, by rw [if_neg (by omega)]; rfl⟩

/-- The numeric XMM frame answers exactly this (46 R271; 47 R280, R288). -/
theorem xmmNumeric_ok {w : Nat} {read : State → RM → Except Stop (BitVec w)} {compute : Xword → BitVec w → Signalled Xword}
    {s t : State} {r : Reg} {rm : RM} :
    xmmNumeric read compute s r rm = .ok t ↔
      xmmReady s = true ∧ ∃ v, read s rm = .ok v ∧ unmasked s.mxcsr (compute (s.xm r) v).pre = false ∧
        unmasked s.mxcsr (compute (s.xm r) v).post = false ∧
        t = (s.orMxcsr ((compute (s.xm r) v).pre ||| (compute (s.xm r) v).post)).setXm r (compute (s.xm r) v).res := by
  simp only [xmmNumeric, bind_ok, xmmCheck_ok, finish_ok]
  simp

end Sys2Proof.Machine
end

