-- ==== Sys2Proof/Laws/Packed.lean ====
section
/-! SUPPORT. The elements of a value built from elements (00_scope R12), one lemma per constructor of packed values. -/

namespace Sys2Proof.Machine

/-- Bits above the low part of a concatenation are those of the high part. -/
theorem extract_high {a w : Nat} (x : BitVec a) (y : BitVec w) (s k : Nat) :
    (x ++ y).extractLsb' (w + s) k = x.extractLsb' s k := by
  apply BitVec.eq_of_getLsbD_eq
  intro i hi
  simp only [BitVec.getLsbD_extractLsb', BitVec.getLsbD_append]
  rw [if_neg (by omega), show w + s + i - w = s + i by omega]

/-- Bits below the high part of a concatenation are those of the low part. -/
theorem extract_low {a w : Nat} (x : BitVec a) (y : BitVec w) (s k : Nat) (h : s + k ≤ w) :
    (x ++ y).extractLsb' s k = y.extractLsb' s k := by
  apply BitVec.eq_of_getLsbD_eq
  intro i hi
  simp only [BitVec.getLsbD_extractLsb', BitVec.getLsbD_append]
  rw [if_pos (by omega)]

/-- All bits of a value. -/
theorem extract_all {w : Nat} {x : BitVec w} : x.extractLsb' 0 w = x := by
  apply BitVec.eq_of_getLsbD_eq
  intro i hi
  simp [hi]

/-- A part of a part. -/
theorem extract_part {w : Nat} (x : BitVec w) (a n b k : Nat) (h : b + k ≤ n) :
    (x.extractLsb' a n).extractLsb' b k = x.extractLsb' (a + b) k := by
  apply BitVec.eq_of_getLsbD_eq
  intro i hi
  simp only [BitVec.getLsbD_extractLsb']
  simp [hi, show b + i < n by omega, Nat.add_assoc]

/-- Element i of `ofBytes f` is f i (00_scope R12). -/
theorem elem_ofBytes (f : Nat → Byte) {i : Nat} (h : i < 8) : elem 8 (ofBytes f) i = f i := by
  unfold elem ofBytes
  interval_cases i
  · exact BitVec.extractLsb'_append_eq_right
  · exact (extract_high _ (f 0) 0 8).trans <| BitVec.extractLsb'_append_eq_right
  · exact (extract_high _ (f 0) 8 8).trans <| (extract_high _ (f 1) 0 8).trans <| BitVec.extractLsb'_append_eq_right
  · exact (extract_high _ (f 0) 16 8).trans <| (extract_high _ (f 1) 8 8).trans <| (extract_high _ (f 2) 0 8).trans <| BitVec.extractLsb'_append_eq_right
  · exact (extract_high _ (f 0) 24 8).trans <| (extract_high _ (f 1) 16 8).trans <| (extract_high _ (f 2) 8 8).trans <| (extract_high _ (f 3) 0 8).trans <| BitVec.extractLsb'_append_eq_right
  · exact (extract_high _ (f 0) 32 8).trans <| (extract_high _ (f 1) 24 8).trans <| (extract_high _ (f 2) 16 8).trans <| (extract_high _ (f 3) 8 8).trans <| (extract_high _ (f 4) 0 8).trans <| BitVec.extractLsb'_append_eq_right
  · exact (extract_high _ (f 0) 40 8).trans <| (extract_high _ (f 1) 32 8).trans <| (extract_high _ (f 2) 24 8).trans <| (extract_high _ (f 3) 16 8).trans <| (extract_high _ (f 4) 8 8).trans <| (extract_high _ (f 5) 0 8).trans <| BitVec.extractLsb'_append_eq_right
  · exact (extract_high _ (f 0) 48 8).trans <| (extract_high _ (f 1) 40 8).trans <| (extract_high _ (f 2) 32 8).trans <| (extract_high _ (f 3) 24 8).trans <| (extract_high _ (f 4) 16 8).trans <| (extract_high _ (f 5) 8 8).trans <| (extract_high _ (f 6) 0 8).trans <| extract_all

/-- Element i of `ofWords f` is f i (00_scope R12). -/
theorem elem_ofWords (f : Nat → Word) {i : Nat} (h : i < 4) : elem 16 (ofWords f) i = f i := by
  unfold elem ofWords
  interval_cases i
  · exact BitVec.extractLsb'_append_eq_right
  · exact (extract_high _ (f 0) 0 16).trans <| BitVec.extractLsb'_append_eq_right
  · exact (extract_high _ (f 0) 16 16).trans <| (extract_high _ (f 1) 0 16).trans <| BitVec.extractLsb'_append_eq_right
  · exact (extract_high _ (f 0) 32 16).trans <| (extract_high _ (f 1) 16 16).trans <| (extract_high _ (f 2) 0 16).trans <| extract_all

/-- Element i of `ofDwords f` is f i (00_scope R12). -/
theorem elem_ofDwords (f : Nat → Dword) {i : Nat} (h : i < 2) : elem 32 (ofDwords f) i = f i := by
  unfold elem ofDwords
  interval_cases i
  · exact BitVec.extractLsb'_append_eq_right
  · exact (extract_high _ (f 0) 0 32).trans <| extract_all

/-- Element i of `ofElems f` is f i (00_scope R12). -/
theorem elem_ofElems (f : Nat → Dword) {i : Nat} (h : i < 4) : elem 32 (ofElems f) i = f i := by
  unfold elem ofElems
  interval_cases i
  · exact BitVec.extractLsb'_append_eq_right
  · exact (extract_high _ (f 0) 0 32).trans <| BitVec.extractLsb'_append_eq_right
  · exact (extract_high _ (f 0) 32 32).trans <| (extract_high _ (f 1) 0 32).trans <| BitVec.extractLsb'_append_eq_right
  · exact (extract_high _ (f 0) 64 32).trans <| (extract_high _ (f 1) 32 32).trans <| (extract_high _ (f 2) 0 32).trans <| extract_all

/-- Element 0 of a scalar result (47 R280). -/
@[simp] theorem elem_lowElem_zero (d : Xword) (v : Dword) : elem 32 (lowElem d v) 0 = v :=
  BitVec.extractLsb'_append_eq_right

/-- Bits 127:32 of a scalar result are the destination's (47 R280). -/
@[simp] theorem lowElem_high (d : Xword) (v : Dword) : (lowElem d v).extractLsb' 32 96 = d.extractLsb' 32 96 :=
  (extract_high _ v 0 96).trans extract_all

/-- Elements 1 to 3 of a scalar result are the destination's (47 R280). -/
theorem elem_lowElem_high (d : Xword) (v : Dword) {k : Nat} (h1 : 1 ≤ k) (h2 : k < 4) :
    elem 32 (lowElem d v) k = elem 32 d k := by
  unfold elem lowElem
  interval_cases k
  · exact (extract_high _ v 0 32).trans (extract_part d 32 96 0 32 (by decide))
  · exact (extract_high _ v 32 32).trans (extract_part d 32 96 32 32 (by decide))
  · exact (extract_high _ v 64 32).trans (extract_part d 32 96 64 32 (by decide))

/-- The low half written (46 R268). -/
@[simp] theorem lowHalf_low (d : Xword) (v : Qword) : (lowHalf d v).extractLsb' 0 64 = v :=
  BitVec.extractLsb'_append_eq_right

/-- The high half kept (46 R268). -/
@[simp] theorem lowHalf_high (d : Xword) (v : Qword) : (lowHalf d v).extractLsb' 64 64 = d.extractLsb' 64 64 :=
  (extract_high _ v 0 64).trans extract_all

/-- The low half kept (46 R264). -/
@[simp] theorem highHalf_low (d : Xword) (v : Qword) : (highHalf d v).extractLsb' 0 64 = d.extractLsb' 0 64 :=
  (extract_low v _ 0 64 (by decide)).trans extract_all

/-- The high half written (46 R264). -/
@[simp] theorem highHalf_high (d : Xword) (v : Qword) : (highHalf d v).extractLsb' 64 64 = v :=
  (extract_high v _ 0 64).trans extract_all

/-- Element k of a packed numeric result (47 R280). -/
theorem elem_packed (f : Nat → Signalled Dword) {k : Nat} (h : k < 4) : elem 32 (packed f).res k = (f k).res :=
  elem_ofElems (fun k => (f k).res) h

end Sys2Proof.Machine
end

