-- ==== Sys2Proof/Laws/Frames.lean ====
section
/-! SUPPORT. From the shared frames to the terms claims are stated in (Safety.lean): what a completed frame changes, and that it
completes when its conditions hold. -/

namespace Sys2Proof.Machine

/-! ### Nothing changed -/

theorem SameGpr.refl (s : State) : SameGpr s s := fun _ => rfl
theorem SameFpr.refl (s : State) : SameFpr s s := fun _ => rfl
theorem SameXmm.refl (s : State) : SameXmm s s := fun _ => rfl
theorem SameMem.refl (s : State) : SameMem s s := fun _ => rfl
theorem SameX87.refl (s : State) : SameX87 s s := ⟨rfl, rfl, rfl⟩
theorem SameSystem.refl (s : State) : SameSystem s s := ⟨rfl, rfl, rfl, rfl, rfl, rfl, rfl⟩
theorem SameDraws.refl (s : State) : SameDraws s s := ⟨rfl, rfl⟩

/-- Clearing TOS leaves it 0 (10_state R30). -/
@[simp] theorem tosOf_clearTos (swr : Word) : tosOf (clearTos swr) = 0#3 := by
  unfold tosOf clearTos
  apply BitVec.eq_of_getLsbD_eq
  intro i hi
  interval_cases i <;> simp

/-- `MmxEnter` after any change that leaves the x87 words alone is the MMX transition. -/
theorem mmxEntered_mmxEnter {s t : State} (h : SameX87 s t) : MmxEntered s t.mmxEnter :=
  ⟨rfl, tosOf_clearTos _, by
    show clearTos t.swr &&& 0xC7FF#16 = _
    rw [h.2.1]; exact clearTos_rest _, h.1⟩

/-! ### What the frames write -/

/-- An MMX register write with the transition changes nothing else (40 R144). -/
theorem writesMm_setMm (s : State) (r : Reg) (v : Qword) : WritesMm s (s.setMm r v).mmxEnter r :=
  ⟨fun _ hq => State.setMm_fp_ne s v hq, by
    show (State.fp (s.setMm r v) r).extractLsb' 64 16 = _
    rw [State.setMm_fp_self]; exact mmxImage_high v,
    mmxEntered_mmxEnter (SameX87.refl s), SameGpr.refl s, SameXmm.refl s, rfl, rfl, SameMem.refl s, SameSystem.refl s,
    SameDraws.refl s⟩

/-- A general register write with the transition changes nothing else (40 R144). -/
theorem mmxWritesGpr_setX (s : State) (r : Reg) (v : Dword) : MmxWritesGpr s (s.setX r v).mmxEnter r :=
  ⟨fun _ hq => State.setX_x_ne s v hq, SameFpr.refl s, mmxEntered_mmxEnter (SameX87.refl s), SameXmm.refl s, rfl, rfl,
    SameMem.refl s, SameSystem.refl s, SameDraws.refl s⟩

/-- An XMM register write changes nothing else (46 R271; 10_state R41). -/
theorem writesXm_setXm (s : State) (r : Reg) (v : Xword) : WritesXm s (s.setXm r v) r :=
  ⟨⟨fun _ hq => State.setXm_xm_ne s v hq, SameGpr.refl s, SameFpr.refl s, SameX87.refl s, rfl, SameMem.refl s,
    SameSystem.refl s, rfl⟩, rfl, rfl⟩

/-- A byte string stored changes no byte outside it. -/
theorem sameMemBut_writeBytes {w n : Nat} (s : State) (a : Addr) (v : BitVec w) :
    SameMemBut s { s with mem := s.mem.writeBytes a (valueBytes n v) } (addresses a n) :=
  fun _ h => Memory.read_writeBytes_ne _ (by simpa using h)

/-- A value stored is held (20_memory R70). -/
theorem holds_writeBytes {w n : Nat} {s : State} (hm : s.mem.wf) (a : Addr) (v : BitVec w) (hn : n ≤ 2 ^ 32) :
    Holds { s with mem := s.mem.writeBytes a (valueBytes n v) } a n v := by
  intro k hk
  show (s.mem.writeBytes a (valueBytes n v)).read _ = _
  rw [Memory.read_writeBytes_get hm a _ (by simpa using hn) (by simpa using hk), valueBytes_get]

/-! ### Completion -/

/-- The MMX binary frame completes with its result and frame (40 R144). -/
theorem mmxCompletes_binary {i : Instr} {w : Nat} {since : Since} {read : State → RM → Except Stop (BitVec w)}
    {f : Qword → BitVec w → Qword} {s : State} {r : Reg} {rm : RM} {v : BitVec w} {P : Qword → Prop}
    (e : exec i s = (mmxBinary since read f s r rm).outcome) (hc : mmxReady since s = true) (hr : read s rm = .ok v)
    (hP : P (f (s.mm r) v)) : MmxCompletes i s r P :=
  ⟨_, by rw [e, mmxBinary_ok.mpr ⟨hc, v, hr, rfl⟩]; rfl,
    by rw [State.mmxEnter_mm, State.setMm_mm_self]; exact hP, writesMm_setMm s r _⟩

/-- The MMX unary frame completes with its result and frame (43 R212 to R219). -/
theorem mmxCompletes_unary {i : Instr} {since : Since} {f : Qword → Qword} {s : State} {r : Reg} {P : Qword → Prop}
    (e : exec i s = (mmxUnary since f s r).outcome) (hc : mmxReady since s = true) (hP : P (f (s.mm r))) :
    MmxCompletes i s r P :=
  ⟨_, by rw [e, mmxUnary_ok.mpr ⟨hc, rfl⟩]; rfl, by rw [State.mmxEnter_mm, State.setMm_mm_self]; exact hP,
    writesMm_setMm s r _⟩

/-- The MMX frame to a general register completes with its result and frame. -/
theorem mmxToGpr_completes {i : Instr} {since : Since} {f : Qword → Dword} {s : State} {r q : Reg}
    (e : exec i s = (mmxToGpr since f s r q).outcome) (hc : mmxReady since s = true) :
    ∃ t, exec i s = .next t ∧ t.x r = f (s.mm q) ∧ MmxWritesGpr s t r :=
  ⟨_, by rw [e, mmxToGpr_ok.mpr ⟨hc, rfl⟩]; rfl, by rw [State.mmxEnter_x, State.setX_x_self], mmxWritesGpr_setX s r _⟩

/-- The XMM binary frame completes with its result and frame (46 R271). -/
theorem xmmCompletes_binary {i : Instr} {w : Nat} {read : State → RM → Except Stop (BitVec w)} {f : Xword → BitVec w → Xword}
    {s : State} {r : Reg} {rm : RM} {v : BitVec w} {P : Xword → Prop} (e : exec i s = (xmmBinary read f s r rm).outcome)
    (hc : xmmReady s = true) (hr : read s rm = .ok v) (hP : P (f (s.xm r) v)) : XmmCompletes i s r P :=
  ⟨_, by rw [e, xmmBinary_ok.mpr ⟨hc, v, hr, rfl⟩]; rfl, by rw [State.setXm_xm_self]; exact hP, writesXm_setXm s r _⟩

/-- No flag of a union is unmasked: none of either part is (47 R288). -/
theorem unmasked_of_none {s : State} {f g : FpFlags} (h : noneUnmasked s (f ||| g)) :
    unmasked s.mxcsr f = false ∧ unmasked s.mxcsr g = false := by
  unfold noneUnmasked at h
  rw [BitVec.and_comm, BitVec.and_or_distrib_left] at h
  have := BitVec.or_eq_zero_iff.mp h
  unfold unmasked
  constructor
  · rw [BitVec.and_comm, this.1]; rfl
  · rw [BitVec.and_comm, this.2]; rfl

/-- The numeric XMM frame completes with its result, flags and frame, where nothing signalled is unmasked (47 R280, R288). -/
theorem numericCompletes_frame {i : Instr} {w : Nat} {read : State → RM → Except Stop (BitVec w)}
    {compute : Xword → BitVec w → Signalled Xword} {s : State} {r : Reg} {rm : RM} {v : BitVec w} {f : FpFlags}
    {P : Xword → Prop} (e : exec i s = (xmmNumeric read compute s r rm).outcome) (hc : xmmReady s = true)
    (hr : read s rm = .ok v) (hf : (compute (s.xm r) v).pre ||| (compute (s.xm r) v).post = f) (hu : noneUnmasked s f)
    (hP : P (compute (s.xm r) v).res) : NumericCompletes i s r f P := by
  subst hf
  obtain ⟨h1, h2⟩ := unmasked_of_none hu
  refine ⟨(s.orMxcsr ((compute (s.xm r) v).pre ||| (compute (s.xm r) v).post)).setXm r (compute (s.xm r) v).res,
    by rw [e, xmmNumeric_ok.mpr ⟨hc, v, hr, h1, h2, rfl⟩]; rfl, by rw [State.setXm_xm_self]; exact hP, rfl,
    ⟨fun _ hq => State.setXm_xm_ne _ _ hq, SameGpr.refl s, SameFpr.refl s, SameX87.refl s, rfl, SameMem.refl s,
      SameSystem.refl s, rfl⟩, rfl⟩

/-! ### The r/m sources -/

theorem mm64_ok {s : State} {rm : RM} (h : reachable .read 8 false s rm = true) : mm64 s rm = .ok (srcMm s rm) :=
  rmRead_ok.mpr ⟨h, rfl⟩
theorem gp32_ok {s : State} {rm : RM} (h : reachable .read 4 false s rm = true) : gp32 s rm = .ok (srcGp s rm) :=
  rmRead_ok.mpr ⟨h, rfl⟩
theorem xmm128_ok {s : State} {rm : RM} (h : reachable .read 16 true s rm = true) : xmm128 s rm = .ok (srcXm s rm) :=
  rmRead_ok.mpr ⟨h, rfl⟩
theorem xmm128u_ok {s : State} {rm : RM} (h : reachable .read 16 false s rm = true) : xmm128u s rm = .ok (srcXm s rm) :=
  rmRead_ok.mpr ⟨h, rfl⟩

/-- The low part of a register as a truncation and as a slice. -/
theorem setWidth_eq_low {w : Nat} (n : Nat) (v : BitVec w) : v.setWidth n = v.extractLsb' 0 n := by
  apply BitVec.eq_of_getLsbD_eq
  intro i hi
  simp [hi]

theorem mm32_ok {s : State} {rm : RM} (h : reachable .read 4 false s rm = true) : mm32 s rm = .ok (srcMm32 s rm) :=
  rmRead_ok.mpr ⟨h, by cases rm <;> simp only [srcMm32, sourceValue, setWidth_eq_low]⟩
theorem gp16_ok {s : State} {rm : RM} (h : reachable .read 2 false s rm = true) : gp16 s rm = .ok (srcGp16 s rm) :=
  rmRead_ok.mpr ⟨h, by cases rm <;> simp only [srcGp16, sourceValue, State.x16, setWidth_eq_low]⟩
theorem xmm64_ok {s : State} {rm : RM} (h : reachable .read 8 false s rm = true) : xmm64 s rm = .ok (srcXm64 s rm) :=
  rmRead_ok.mpr ⟨h, by cases rm <;> simp only [srcXm64, sourceValue, setWidth_eq_low]⟩
theorem xmm32_ok {s : State} {rm : RM} (h : reachable .read 4 false s rm = true) : xmm32 s rm = .ok (srcXm32 s rm) :=
  rmRead_ok.mpr ⟨h, by cases rm <;> simp only [srcXm32, sourceValue, setWidth_eq_low]⟩

end Sys2Proof.Machine
end

