-- ==== Sys2Proof/Laws/PerInstr.lean ====
section
/-! SUPPORT. One statement about every instruction as syntax, instruction by instruction: its encoding, in every form of its
memory operand, is 2 to 15 bytes long, so it never meets the length limit (30_encoding R104). -/

namespace Sys2Proof.Laws

/-- A segment prefix is at most one byte (30_encoding R106). -/
theorem segPrefix_length (o : Option Seg) : (segPrefix o).length ≤ 1 := by
  cases o with
  | none => decide
  | some g => cases g <;> decide

/-- An address-size prefix is at most one byte (30_encoding R106). -/
theorem sizePrefix_length (cs : CodeSize) (a : AddrSize) : (sizePrefix cs a).length ≤ 1 := by
  cases cs <;> cases a <;> decide

/-- The prefixes of a memory operand are at most two bytes. -/
theorem memPrefix_length (cs : CodeSize) (m : Mem) : (memPrefix cs m).length ≤ 2 := by
  cases m with
  | a32 o b i d =>
    have h1 := segPrefix_length o
    have h2 := sizePrefix_length cs .a32
    simp only [memPrefix, List.length_append]; omega
  | a16 o b d =>
    have h1 := segPrefix_length o
    have h2 := sizePrefix_length cs .a16
    simp only [memPrefix, List.length_append]; omega

/-- An instruction with an r/m operand and at most one immediate byte fits. -/
theorem fits_rm (form : MemForm) (cs : CodeSize) (f3 : Bool) (op : Byte) (r : Reg) (rm : RM) {imm : List Byte} (h : imm.length ≤ 1) :
    2 ≤ (encodeRm form cs f3 op r rm imm).length ∧ (encodeRm form cs f3 op r rm imm).length ≤ 15 := by
  cases rm with
  | reg q => cases f3 <;> simp [encodeRm, encodeReg] <;> omega
  | mem m =>
    have h1 := memPrefix_length cs m
    have h2 := encodeMem_length form m
    cases f3 <;> simp [encodeRm] <;> omega

/-- An instruction with both operands in registers and at most one immediate byte fits. -/
theorem fits_reg (op : Byte) (r rm : Reg) {imm : List Byte} (h : imm.length ≤ 1) :
    2 ≤ (encodeReg op r rm imm).length ∧ (encodeReg op r rm imm).length ≤ 15 := by
  simp [encodeReg]; omega

namespace Fits

/-- Every encoding is 2 to 15 bytes long, in code of either size (30_encoding R100, R104). -/
def Statement (i : Instr) : Prop :=
  ∀ (form : MemForm) (cs : CodeSize), 2 ≤ (encodeAs form cs i).length ∧ (encodeAs form cs i).length ≤ 15

theorem punpcklbw (r : Reg) (rm : RM) : Statement (.punpcklbw r rm) := fun form cs => fits_rm form cs false 0x60#8 r rm (imm := []) (by simp)
theorem punpcklwd (r : Reg) (rm : RM) : Statement (.punpcklwd r rm) := fun form cs => fits_rm form cs false 0x61#8 r rm (imm := []) (by simp)
theorem punpckldq (r : Reg) (rm : RM) : Statement (.punpckldq r rm) := fun form cs => fits_rm form cs false 0x62#8 r rm (imm := []) (by simp)
theorem packsswb (r : Reg) (rm : RM) : Statement (.packsswb r rm) := fun form cs => fits_rm form cs false 0x63#8 r rm (imm := []) (by simp)
theorem pcmpgtb (r : Reg) (rm : RM) : Statement (.pcmpgtb r rm) := fun form cs => fits_rm form cs false 0x64#8 r rm (imm := []) (by simp)
theorem pcmpgtw (r : Reg) (rm : RM) : Statement (.pcmpgtw r rm) := fun form cs => fits_rm form cs false 0x65#8 r rm (imm := []) (by simp)
theorem pcmpgtd (r : Reg) (rm : RM) : Statement (.pcmpgtd r rm) := fun form cs => fits_rm form cs false 0x66#8 r rm (imm := []) (by simp)
theorem packuswb (r : Reg) (rm : RM) : Statement (.packuswb r rm) := fun form cs => fits_rm form cs false 0x67#8 r rm (imm := []) (by simp)
theorem punpckhbw (r : Reg) (rm : RM) : Statement (.punpckhbw r rm) := fun form cs => fits_rm form cs false 0x68#8 r rm (imm := []) (by simp)
theorem punpckhwd (r : Reg) (rm : RM) : Statement (.punpckhwd r rm) := fun form cs => fits_rm form cs false 0x69#8 r rm (imm := []) (by simp)
theorem punpckhdq (r : Reg) (rm : RM) : Statement (.punpckhdq r rm) := fun form cs => fits_rm form cs false 0x6A#8 r rm (imm := []) (by simp)
theorem packssdw (r : Reg) (rm : RM) : Statement (.packssdw r rm) := fun form cs => fits_rm form cs false 0x6B#8 r rm (imm := []) (by simp)
theorem movdLoad (r : Reg) (rm : RM) : Statement (.movdLoad r rm) := fun form cs => fits_rm form cs false 0x6E#8 r rm (imm := []) (by simp)
theorem movqLoad (r : Reg) (rm : RM) : Statement (.movqLoad r rm) := fun form cs => fits_rm form cs false 0x6F#8 r rm (imm := []) (by simp)
theorem pcmpeqb (r : Reg) (rm : RM) : Statement (.pcmpeqb r rm) := fun form cs => fits_rm form cs false 0x74#8 r rm (imm := []) (by simp)
theorem pcmpeqw (r : Reg) (rm : RM) : Statement (.pcmpeqw r rm) := fun form cs => fits_rm form cs false 0x75#8 r rm (imm := []) (by simp)
theorem pcmpeqd (r : Reg) (rm : RM) : Statement (.pcmpeqd r rm) := fun form cs => fits_rm form cs false 0x76#8 r rm (imm := []) (by simp)
theorem movdStore (r : Reg) (rm : RM) : Statement (.movdStore r rm) := fun form cs => fits_rm form cs false 0x7E#8 r rm (imm := []) (by simp)
theorem movqStore (r : Reg) (rm : RM) : Statement (.movqStore r rm) := fun form cs => fits_rm form cs false 0x7F#8 r rm (imm := []) (by simp)
theorem psrlw (r : Reg) (rm : RM) : Statement (.psrlw r rm) := fun form cs => fits_rm form cs false 0xD1#8 r rm (imm := []) (by simp)
theorem psrld (r : Reg) (rm : RM) : Statement (.psrld r rm) := fun form cs => fits_rm form cs false 0xD2#8 r rm (imm := []) (by simp)
theorem psrlq (r : Reg) (rm : RM) : Statement (.psrlq r rm) := fun form cs => fits_rm form cs false 0xD3#8 r rm (imm := []) (by simp)
theorem pmullw (r : Reg) (rm : RM) : Statement (.pmullw r rm) := fun form cs => fits_rm form cs false 0xD5#8 r rm (imm := []) (by simp)
theorem psubusb (r : Reg) (rm : RM) : Statement (.psubusb r rm) := fun form cs => fits_rm form cs false 0xD8#8 r rm (imm := []) (by simp)
theorem psubusw (r : Reg) (rm : RM) : Statement (.psubusw r rm) := fun form cs => fits_rm form cs false 0xD9#8 r rm (imm := []) (by simp)
theorem pand (r : Reg) (rm : RM) : Statement (.pand r rm) := fun form cs => fits_rm form cs false 0xDB#8 r rm (imm := []) (by simp)
theorem paddusb (r : Reg) (rm : RM) : Statement (.paddusb r rm) := fun form cs => fits_rm form cs false 0xDC#8 r rm (imm := []) (by simp)
theorem paddusw (r : Reg) (rm : RM) : Statement (.paddusw r rm) := fun form cs => fits_rm form cs false 0xDD#8 r rm (imm := []) (by simp)
theorem pandn (r : Reg) (rm : RM) : Statement (.pandn r rm) := fun form cs => fits_rm form cs false 0xDF#8 r rm (imm := []) (by simp)
theorem psraw (r : Reg) (rm : RM) : Statement (.psraw r rm) := fun form cs => fits_rm form cs false 0xE1#8 r rm (imm := []) (by simp)
theorem psrad (r : Reg) (rm : RM) : Statement (.psrad r rm) := fun form cs => fits_rm form cs false 0xE2#8 r rm (imm := []) (by simp)
theorem pmulhw (r : Reg) (rm : RM) : Statement (.pmulhw r rm) := fun form cs => fits_rm form cs false 0xE5#8 r rm (imm := []) (by simp)
theorem psubsb (r : Reg) (rm : RM) : Statement (.psubsb r rm) := fun form cs => fits_rm form cs false 0xE8#8 r rm (imm := []) (by simp)
theorem psubsw (r : Reg) (rm : RM) : Statement (.psubsw r rm) := fun form cs => fits_rm form cs false 0xE9#8 r rm (imm := []) (by simp)
theorem por (r : Reg) (rm : RM) : Statement (.por r rm) := fun form cs => fits_rm form cs false 0xEB#8 r rm (imm := []) (by simp)
theorem paddsb (r : Reg) (rm : RM) : Statement (.paddsb r rm) := fun form cs => fits_rm form cs false 0xEC#8 r rm (imm := []) (by simp)
theorem paddsw (r : Reg) (rm : RM) : Statement (.paddsw r rm) := fun form cs => fits_rm form cs false 0xED#8 r rm (imm := []) (by simp)
theorem pxor (r : Reg) (rm : RM) : Statement (.pxor r rm) := fun form cs => fits_rm form cs false 0xEF#8 r rm (imm := []) (by simp)
theorem psllw (r : Reg) (rm : RM) : Statement (.psllw r rm) := fun form cs => fits_rm form cs false 0xF1#8 r rm (imm := []) (by simp)
theorem pslld (r : Reg) (rm : RM) : Statement (.pslld r rm) := fun form cs => fits_rm form cs false 0xF2#8 r rm (imm := []) (by simp)
theorem psllq (r : Reg) (rm : RM) : Statement (.psllq r rm) := fun form cs => fits_rm form cs false 0xF3#8 r rm (imm := []) (by simp)
theorem pmaddwd (r : Reg) (rm : RM) : Statement (.pmaddwd r rm) := fun form cs => fits_rm form cs false 0xF5#8 r rm (imm := []) (by simp)
theorem psubb (r : Reg) (rm : RM) : Statement (.psubb r rm) := fun form cs => fits_rm form cs false 0xF8#8 r rm (imm := []) (by simp)
theorem psubw (r : Reg) (rm : RM) : Statement (.psubw r rm) := fun form cs => fits_rm form cs false 0xF9#8 r rm (imm := []) (by simp)
theorem psubd (r : Reg) (rm : RM) : Statement (.psubd r rm) := fun form cs => fits_rm form cs false 0xFA#8 r rm (imm := []) (by simp)
theorem paddb (r : Reg) (rm : RM) : Statement (.paddb r rm) := fun form cs => fits_rm form cs false 0xFC#8 r rm (imm := []) (by simp)
theorem paddw (r : Reg) (rm : RM) : Statement (.paddw r rm) := fun form cs => fits_rm form cs false 0xFD#8 r rm (imm := []) (by simp)
theorem paddd (r : Reg) (rm : RM) : Statement (.paddd r rm) := fun form cs => fits_rm form cs false 0xFE#8 r rm (imm := []) (by simp)
theorem emms : Statement .emms := fun _ _ => ⟨Nat.le_of_ble_eq_true rfl, Nat.le_of_ble_eq_true rfl⟩
theorem psrlwImm (q : Reg) (imm : Byte) : Statement (.psrlwImm q imm) := fun _ _ => fits_reg _ _ _ (by simp)
theorem psrawImm (q : Reg) (imm : Byte) : Statement (.psrawImm q imm) := fun _ _ => fits_reg _ _ _ (by simp)
theorem psllwImm (q : Reg) (imm : Byte) : Statement (.psllwImm q imm) := fun _ _ => fits_reg _ _ _ (by simp)
theorem psrldImm (q : Reg) (imm : Byte) : Statement (.psrldImm q imm) := fun _ _ => fits_reg _ _ _ (by simp)
theorem psradImm (q : Reg) (imm : Byte) : Statement (.psradImm q imm) := fun _ _ => fits_reg _ _ _ (by simp)
theorem pslldImm (q : Reg) (imm : Byte) : Statement (.pslldImm q imm) := fun _ _ => fits_reg _ _ _ (by simp)
theorem psrlqImm (q : Reg) (imm : Byte) : Statement (.psrlqImm q imm) := fun _ _ => fits_reg _ _ _ (by simp)
theorem psllqImm (q : Reg) (imm : Byte) : Statement (.psllqImm q imm) := fun _ _ => fits_reg _ _ _ (by simp)
theorem pshufw (r : Reg) (rm : RM) (imm : Byte) : Statement (.pshufw r rm imm) := fun form cs => fits_rm form cs false 0x70#8 r rm (imm := [imm]) (by simp)
theorem pinsrw (r : Reg) (rm : RM) (imm : Byte) : Statement (.pinsrw r rm imm) := fun form cs => fits_rm form cs false 0xC4#8 r rm (imm := [imm]) (by simp)
theorem pextrw (r q : Reg) (imm : Byte) : Statement (.pextrw r q imm) := fun _ _ => fits_reg _ _ _ (by simp)
theorem pmovmskb (r q : Reg) : Statement (.pmovmskb r q) := fun _ _ => fits_reg _ _ _ (by simp)
theorem pminub (r : Reg) (rm : RM) : Statement (.pminub r rm) := fun form cs => fits_rm form cs false 0xDA#8 r rm (imm := []) (by simp)
theorem pmaxub (r : Reg) (rm : RM) : Statement (.pmaxub r rm) := fun form cs => fits_rm form cs false 0xDE#8 r rm (imm := []) (by simp)
theorem pavgb (r : Reg) (rm : RM) : Statement (.pavgb r rm) := fun form cs => fits_rm form cs false 0xE0#8 r rm (imm := []) (by simp)
theorem pavgw (r : Reg) (rm : RM) : Statement (.pavgw r rm) := fun form cs => fits_rm form cs false 0xE3#8 r rm (imm := []) (by simp)
theorem pmulhuw (r : Reg) (rm : RM) : Statement (.pmulhuw r rm) := fun form cs => fits_rm form cs false 0xE4#8 r rm (imm := []) (by simp)
theorem pminsw (r : Reg) (rm : RM) : Statement (.pminsw r rm) := fun form cs => fits_rm form cs false 0xEA#8 r rm (imm := []) (by simp)
theorem pmaxsw (r : Reg) (rm : RM) : Statement (.pmaxsw r rm) := fun form cs => fits_rm form cs false 0xEE#8 r rm (imm := []) (by simp)
theorem psadbw (r : Reg) (rm : RM) : Statement (.psadbw r rm) := fun form cs => fits_rm form cs false 0xF6#8 r rm (imm := []) (by simp)
theorem movntq (r : Reg) (m : Mem) : Statement (.movntq r m) := fun form cs => fits_rm form cs false 0xE7#8 r (.mem m) (imm := []) (by simp)
theorem maskmovq (r q : Reg) (ovr : Option Seg) (size : AddrSize) : Statement (.maskmovq r q ovr size) := fun _ cs => by
  have h1 := segPrefix_length ovr
  have h2 := sizePrefix_length cs size
  show 2 ≤ (segPrefix ovr ++ sizePrefix cs size ++ encodeReg 0xF7#8 r q []).length ∧
    (segPrefix ovr ++ sizePrefix cs size ++ encodeReg 0xF7#8 r q []).length ≤ 15
  simp only [encodeReg, List.length_append, List.length_cons, List.length_nil]
  omega
theorem movupsLoad (r : Reg) (rm : RM) : Statement (.movupsLoad r rm) := fun form cs => fits_rm form cs false 0x10#8 r rm (imm := []) (by simp)
theorem movupsStore (r : Reg) (rm : RM) : Statement (.movupsStore r rm) := fun form cs => fits_rm form cs false 0x11#8 r rm (imm := []) (by simp)
theorem movssLoad (r : Reg) (rm : RM) : Statement (.movssLoad r rm) := fun form cs => fits_rm form cs true 0x10#8 r rm (imm := []) (by simp)
theorem movssStore (r : Reg) (rm : RM) : Statement (.movssStore r rm) := fun form cs => fits_rm form cs true 0x11#8 r rm (imm := []) (by simp)
theorem movlpsLoad (r : Reg) (m : Mem) : Statement (.movlpsLoad r m) := fun form cs => fits_rm form cs false 0x12#8 r (.mem m) (imm := []) (by simp)
theorem movhlps (r q : Reg) : Statement (.movhlps r q) := fun _ _ => fits_reg _ _ _ (by simp)
theorem movlpsStore (r : Reg) (m : Mem) : Statement (.movlpsStore r m) := fun form cs => fits_rm form cs false 0x13#8 r (.mem m) (imm := []) (by simp)
theorem unpcklps (r : Reg) (rm : RM) : Statement (.unpcklps r rm) := fun form cs => fits_rm form cs false 0x14#8 r rm (imm := []) (by simp)
theorem unpckhps (r : Reg) (rm : RM) : Statement (.unpckhps r rm) := fun form cs => fits_rm form cs false 0x15#8 r rm (imm := []) (by simp)
theorem movhpsLoad (r : Reg) (m : Mem) : Statement (.movhpsLoad r m) := fun form cs => fits_rm form cs false 0x16#8 r (.mem m) (imm := []) (by simp)
theorem movlhps (r q : Reg) : Statement (.movlhps r q) := fun _ _ => fits_reg _ _ _ (by simp)
theorem movhpsStore (r : Reg) (m : Mem) : Statement (.movhpsStore r m) := fun form cs => fits_rm form cs false 0x17#8 r (.mem m) (imm := []) (by simp)
theorem prefetchnta (m : Mem) : Statement (.prefetchnta m) := fun form cs => fits_rm form cs false 0x18#8 0#3 (.mem m) (imm := []) (by simp)
theorem prefetcht0 (m : Mem) : Statement (.prefetcht0 m) := fun form cs => fits_rm form cs false 0x18#8 1#3 (.mem m) (imm := []) (by simp)
theorem prefetcht1 (m : Mem) : Statement (.prefetcht1 m) := fun form cs => fits_rm form cs false 0x18#8 2#3 (.mem m) (imm := []) (by simp)
theorem prefetcht2 (m : Mem) : Statement (.prefetcht2 m) := fun form cs => fits_rm form cs false 0x18#8 3#3 (.mem m) (imm := []) (by simp)
theorem movapsLoad (r : Reg) (rm : RM) : Statement (.movapsLoad r rm) := fun form cs => fits_rm form cs false 0x28#8 r rm (imm := []) (by simp)
theorem movapsStore (r : Reg) (rm : RM) : Statement (.movapsStore r rm) := fun form cs => fits_rm form cs false 0x29#8 r rm (imm := []) (by simp)
theorem cvtpi2ps (r : Reg) (rm : RM) : Statement (.cvtpi2ps r rm) := fun form cs => fits_rm form cs false 0x2A#8 r rm (imm := []) (by simp)
theorem cvtsi2ss (r : Reg) (rm : RM) : Statement (.cvtsi2ss r rm) := fun form cs => fits_rm form cs true 0x2A#8 r rm (imm := []) (by simp)
theorem movntps (r : Reg) (m : Mem) : Statement (.movntps r m) := fun form cs => fits_rm form cs false 0x2B#8 r (.mem m) (imm := []) (by simp)
theorem cvttps2pi (r : Reg) (rm : RM) : Statement (.cvttps2pi r rm) := fun form cs => fits_rm form cs false 0x2C#8 r rm (imm := []) (by simp)
theorem cvttss2si (r : Reg) (rm : RM) : Statement (.cvttss2si r rm) := fun form cs => fits_rm form cs true 0x2C#8 r rm (imm := []) (by simp)
theorem cvtps2pi (r : Reg) (rm : RM) : Statement (.cvtps2pi r rm) := fun form cs => fits_rm form cs false 0x2D#8 r rm (imm := []) (by simp)
theorem cvtss2si (r : Reg) (rm : RM) : Statement (.cvtss2si r rm) := fun form cs => fits_rm form cs true 0x2D#8 r rm (imm := []) (by simp)
theorem ucomiss (r : Reg) (rm : RM) : Statement (.ucomiss r rm) := fun form cs => fits_rm form cs false 0x2E#8 r rm (imm := []) (by simp)
theorem comiss (r : Reg) (rm : RM) : Statement (.comiss r rm) := fun form cs => fits_rm form cs false 0x2F#8 r rm (imm := []) (by simp)
theorem movmskps (r q : Reg) : Statement (.movmskps r q) := fun _ _ => fits_reg _ _ _ (by simp)
theorem sqrtps (r : Reg) (rm : RM) : Statement (.sqrtps r rm) := fun form cs => fits_rm form cs false 0x51#8 r rm (imm := []) (by simp)
theorem sqrtss (r : Reg) (rm : RM) : Statement (.sqrtss r rm) := fun form cs => fits_rm form cs true 0x51#8 r rm (imm := []) (by simp)
theorem rsqrtps (r : Reg) (rm : RM) : Statement (.rsqrtps r rm) := fun form cs => fits_rm form cs false 0x52#8 r rm (imm := []) (by simp)
theorem rsqrtss (r : Reg) (rm : RM) : Statement (.rsqrtss r rm) := fun form cs => fits_rm form cs true 0x52#8 r rm (imm := []) (by simp)
theorem rcpps (r : Reg) (rm : RM) : Statement (.rcpps r rm) := fun form cs => fits_rm form cs false 0x53#8 r rm (imm := []) (by simp)
theorem rcpss (r : Reg) (rm : RM) : Statement (.rcpss r rm) := fun form cs => fits_rm form cs true 0x53#8 r rm (imm := []) (by simp)
theorem andps (r : Reg) (rm : RM) : Statement (.andps r rm) := fun form cs => fits_rm form cs false 0x54#8 r rm (imm := []) (by simp)
theorem andnps (r : Reg) (rm : RM) : Statement (.andnps r rm) := fun form cs => fits_rm form cs false 0x55#8 r rm (imm := []) (by simp)
theorem orps (r : Reg) (rm : RM) : Statement (.orps r rm) := fun form cs => fits_rm form cs false 0x56#8 r rm (imm := []) (by simp)
theorem xorps (r : Reg) (rm : RM) : Statement (.xorps r rm) := fun form cs => fits_rm form cs false 0x57#8 r rm (imm := []) (by simp)
theorem addps (r : Reg) (rm : RM) : Statement (.addps r rm) := fun form cs => fits_rm form cs false 0x58#8 r rm (imm := []) (by simp)
theorem addss (r : Reg) (rm : RM) : Statement (.addss r rm) := fun form cs => fits_rm form cs true 0x58#8 r rm (imm := []) (by simp)
theorem mulps (r : Reg) (rm : RM) : Statement (.mulps r rm) := fun form cs => fits_rm form cs false 0x59#8 r rm (imm := []) (by simp)
theorem mulss (r : Reg) (rm : RM) : Statement (.mulss r rm) := fun form cs => fits_rm form cs true 0x59#8 r rm (imm := []) (by simp)
theorem subps (r : Reg) (rm : RM) : Statement (.subps r rm) := fun form cs => fits_rm form cs false 0x5C#8 r rm (imm := []) (by simp)
theorem subss (r : Reg) (rm : RM) : Statement (.subss r rm) := fun form cs => fits_rm form cs true 0x5C#8 r rm (imm := []) (by simp)
theorem minps (r : Reg) (rm : RM) : Statement (.minps r rm) := fun form cs => fits_rm form cs false 0x5D#8 r rm (imm := []) (by simp)
theorem minss (r : Reg) (rm : RM) : Statement (.minss r rm) := fun form cs => fits_rm form cs true 0x5D#8 r rm (imm := []) (by simp)
theorem divps (r : Reg) (rm : RM) : Statement (.divps r rm) := fun form cs => fits_rm form cs false 0x5E#8 r rm (imm := []) (by simp)
theorem divss (r : Reg) (rm : RM) : Statement (.divss r rm) := fun form cs => fits_rm form cs true 0x5E#8 r rm (imm := []) (by simp)
theorem maxps (r : Reg) (rm : RM) : Statement (.maxps r rm) := fun form cs => fits_rm form cs false 0x5F#8 r rm (imm := []) (by simp)
theorem maxss (r : Reg) (rm : RM) : Statement (.maxss r rm) := fun form cs => fits_rm form cs true 0x5F#8 r rm (imm := []) (by simp)
theorem fxsave (m : Mem) : Statement (.fxsave m) := fun form cs => fits_rm form cs false 0xAE#8 0#3 (.mem m) (imm := []) (by simp)
theorem fxrstor (m : Mem) : Statement (.fxrstor m) := fun form cs => fits_rm form cs false 0xAE#8 1#3 (.mem m) (imm := []) (by simp)
theorem ldmxcsr (m : Mem) : Statement (.ldmxcsr m) := fun form cs => fits_rm form cs false 0xAE#8 2#3 (.mem m) (imm := []) (by simp)
theorem stmxcsr (m : Mem) : Statement (.stmxcsr m) := fun form cs => fits_rm form cs false 0xAE#8 3#3 (.mem m) (imm := []) (by simp)
theorem sfence : Statement .sfence := fun _ _ => ⟨Nat.le_of_ble_eq_true rfl, Nat.le_of_ble_eq_true rfl⟩
theorem cmpps (r : Reg) (rm : RM) (imm : Byte) : Statement (.cmpps r rm imm) := fun form cs => fits_rm form cs false 0xC2#8 r rm (imm := [imm]) (by simp)
theorem cmpss (r : Reg) (rm : RM) (imm : Byte) : Statement (.cmpss r rm imm) := fun form cs => fits_rm form cs true 0xC2#8 r rm (imm := [imm]) (by simp)
theorem shufps (r : Reg) (rm : RM) (imm : Byte) : Statement (.shufps r rm imm) := fun form cs => fits_rm form cs false 0xC6#8 r rm (imm := [imm]) (by simp)
theorem wrmsr : Statement .wrmsr := fun _ _ => ⟨Nat.le_of_ble_eq_true rfl, Nat.le_of_ble_eq_true rfl⟩
theorem rdtsc : Statement .rdtsc := fun _ _ => ⟨Nat.le_of_ble_eq_true rfl, Nat.le_of_ble_eq_true rfl⟩
theorem rdmsr : Statement .rdmsr := fun _ _ => ⟨Nat.le_of_ble_eq_true rfl, Nat.le_of_ble_eq_true rfl⟩
theorem cpuid : Statement .cpuid := fun _ _ => ⟨Nat.le_of_ble_eq_true rfl, Nat.le_of_ble_eq_true rfl⟩

end Fits
end Sys2Proof.Laws
end

