-- ==== Sys2Proof/Tests/Slice0.lean ====
section
/-! SUPPORT. The model's own tests: ill-formed terms that WellFormed refuses; for every instruction a word written out from the encoding
of 30_encoding that decodes to it; vectors of spec/95_test_vectors (V-numbers), whose results are the spec's; and, for every
statement of Certificates/Slice0/Obligations that has hypotheses, a concrete state and operands that meet them (theorems
`witness_…`). -/

namespace Sys2Proof.Tests

open Sys2Proof.Machine

/-! ## WellFormed: the one check refuses (30_encoding R103, R109) -/

theorem test_wf_refuses_esp_index : (Instr.movqLoad 0#3 (.mem (.a32 none (some 0#3) (some (4#3, 0#2)) 0#32))).wf = false := by decide
theorem test_wf_refuses_esp_index_no_base : (Instr.movntps 0#3 (.a32 none none (some (4#3, 3#2)) 0#32)).wf = false := by decide
theorem test_wf_accepts_esp_base : (Instr.fxsave (.a32 (some .ss) (some 4#3) (some (5#3, 2#2)) 0x10#32)).wf = true := by decide

/-! ## Decoding: bytes from the tables of 30_encoding R113 to R118, with the ModR/M byte of R102 -/

/-- Whether bytes decode, in 32-bit code, to an instruction whose length is all of them. -/
def decodesTo (p : List Byte × Instr) : Bool := decode .c32 p.1 == .ok (.instr p.2, p.1.length)

theorem test_decode_mmx_part_1 : ([
    ([0x0F#8, 0x60#8, 0xCA#8], Instr.punpcklbw 1#3 (.reg 2#3)),
    ([0x0F#8, 0x61#8, 0xCA#8], .punpcklwd 1#3 (.reg 2#3)),
    ([0x0F#8, 0x62#8, 0xCA#8], .punpckldq 1#3 (.reg 2#3)),
    ([0x0F#8, 0x63#8, 0xCA#8], .packsswb 1#3 (.reg 2#3)),
    ([0x0F#8, 0x64#8, 0xCA#8], .pcmpgtb 1#3 (.reg 2#3)),
    ([0x0F#8, 0x65#8, 0xCA#8], .pcmpgtw 1#3 (.reg 2#3)),
    ([0x0F#8, 0x66#8, 0xCA#8], .pcmpgtd 1#3 (.reg 2#3)),
    ([0x0F#8, 0x67#8, 0xCA#8], .packuswb 1#3 (.reg 2#3)),
    ([0x0F#8, 0x68#8, 0xCA#8], .punpckhbw 1#3 (.reg 2#3)),
    ([0x0F#8, 0x69#8, 0xCA#8], .punpckhwd 1#3 (.reg 2#3)),
    ([0x0F#8, 0x6A#8, 0xCA#8], .punpckhdq 1#3 (.reg 2#3)),
    ([0x0F#8, 0x6B#8, 0xCA#8], .packssdw 1#3 (.reg 2#3)),
    ([0x0F#8, 0x6E#8, 0xCA#8], .movdLoad 1#3 (.reg 2#3)),
    ([0x0F#8, 0x6F#8, 0xCA#8], .movqLoad 1#3 (.reg 2#3)),
    ([0x0F#8, 0x74#8, 0xCA#8], .pcmpeqb 1#3 (.reg 2#3)),
    ([0x0F#8, 0x75#8, 0xCA#8], .pcmpeqw 1#3 (.reg 2#3)),
    ([0x0F#8, 0x76#8, 0xCA#8], .pcmpeqd 1#3 (.reg 2#3)),
    ([0x0F#8, 0x7E#8, 0xCA#8], .movdStore 1#3 (.reg 2#3)),
    ([0x0F#8, 0x7F#8, 0xCA#8], .movqStore 1#3 (.reg 2#3)),
    ([0x0F#8, 0xD1#8, 0xCA#8], .psrlw 1#3 (.reg 2#3)),
    ([0x0F#8, 0xD2#8, 0xCA#8], .psrld 1#3 (.reg 2#3)),
    ([0x0F#8, 0xD3#8, 0xCA#8], .psrlq 1#3 (.reg 2#3)),
    ([0x0F#8, 0xD5#8, 0xCA#8], .pmullw 1#3 (.reg 2#3)),
    ([0x0F#8, 0xD8#8, 0xCA#8], .psubusb 1#3 (.reg 2#3)),
    ([0x0F#8, 0xD9#8, 0xCA#8], .psubusw 1#3 (.reg 2#3))] : List (List Byte × Instr)).all decodesTo = true := by decide

theorem test_decode_mmx_part_2 : ([
    ([0x0F#8, 0xDB#8, 0xCA#8], Instr.pand 1#3 (.reg 2#3)),
    ([0x0F#8, 0xDC#8, 0xCA#8], .paddusb 1#3 (.reg 2#3)),
    ([0x0F#8, 0xDD#8, 0xCA#8], .paddusw 1#3 (.reg 2#3)),
    ([0x0F#8, 0xDF#8, 0xCA#8], .pandn 1#3 (.reg 2#3)),
    ([0x0F#8, 0xE1#8, 0xCA#8], .psraw 1#3 (.reg 2#3)),
    ([0x0F#8, 0xE2#8, 0xCA#8], .psrad 1#3 (.reg 2#3)),
    ([0x0F#8, 0xE5#8, 0xCA#8], .pmulhw 1#3 (.reg 2#3)),
    ([0x0F#8, 0xE8#8, 0xCA#8], .psubsb 1#3 (.reg 2#3)),
    ([0x0F#8, 0xE9#8, 0xCA#8], .psubsw 1#3 (.reg 2#3)),
    ([0x0F#8, 0xEB#8, 0xCA#8], .por 1#3 (.reg 2#3)),
    ([0x0F#8, 0xEC#8, 0xCA#8], .paddsb 1#3 (.reg 2#3)),
    ([0x0F#8, 0xED#8, 0xCA#8], .paddsw 1#3 (.reg 2#3)),
    ([0x0F#8, 0xEF#8, 0xCA#8], .pxor 1#3 (.reg 2#3)),
    ([0x0F#8, 0xF1#8, 0xCA#8], .psllw 1#3 (.reg 2#3)),
    ([0x0F#8, 0xF2#8, 0xCA#8], .pslld 1#3 (.reg 2#3)),
    ([0x0F#8, 0xF3#8, 0xCA#8], .psllq 1#3 (.reg 2#3)),
    ([0x0F#8, 0xF5#8, 0xCA#8], .pmaddwd 1#3 (.reg 2#3)),
    ([0x0F#8, 0xF8#8, 0xCA#8], .psubb 1#3 (.reg 2#3)),
    ([0x0F#8, 0xF9#8, 0xCA#8], .psubw 1#3 (.reg 2#3)),
    ([0x0F#8, 0xFA#8, 0xCA#8], .psubd 1#3 (.reg 2#3)),
    ([0x0F#8, 0xFC#8, 0xCA#8], .paddb 1#3 (.reg 2#3)),
    ([0x0F#8, 0xFD#8, 0xCA#8], .paddw 1#3 (.reg 2#3)),
    ([0x0F#8, 0xFE#8, 0xCA#8], .paddd 1#3 (.reg 2#3)),
    ([0x0F#8, 0x77#8], .emms)] : List (List Byte × Instr)).all decodesTo = true := by decide

theorem test_decode_shift_immediates : ([
    ([0x0F#8, 0x71#8, 0xD2#8, 0x85#8], Instr.psrlwImm 2#3 0x85#8),
    ([0x0F#8, 0x71#8, 0xE2#8, 0x85#8], .psrawImm 2#3 0x85#8),
    ([0x0F#8, 0x71#8, 0xF2#8, 0x85#8], .psllwImm 2#3 0x85#8),
    ([0x0F#8, 0x72#8, 0xD2#8, 0x85#8], .psrldImm 2#3 0x85#8),
    ([0x0F#8, 0x72#8, 0xE2#8, 0x85#8], .psradImm 2#3 0x85#8),
    ([0x0F#8, 0x72#8, 0xF2#8, 0x85#8], .pslldImm 2#3 0x85#8),
    ([0x0F#8, 0x73#8, 0xD2#8, 0x85#8], .psrlqImm 2#3 0x85#8),
    ([0x0F#8, 0x73#8, 0xF2#8, 0x85#8], .psllqImm 2#3 0x85#8)] : List (List Byte × Instr)).all decodesTo = true := by decide

theorem test_decode_mmx_pentium_iii : ([
    ([0x0F#8, 0x70#8, 0x0A#8, 0x85#8], Instr.pshufw 1#3 (.mem (.a32 none (some 2#3) none 0#32)) 0x85#8),
    ([0x0F#8, 0xC4#8, 0x0A#8, 0x85#8], .pinsrw 1#3 (.mem (.a32 none (some 2#3) none 0#32)) 0x85#8),
    ([0x0F#8, 0xC5#8, 0xCA#8, 0x85#8], .pextrw 1#3 2#3 0x85#8),
    ([0x0F#8, 0xD7#8, 0xCA#8], .pmovmskb 1#3 2#3),
    ([0x0F#8, 0xDA#8, 0xCA#8], .pminub 1#3 (.reg 2#3)),
    ([0x0F#8, 0xDE#8, 0xCA#8], .pmaxub 1#3 (.reg 2#3)),
    ([0x0F#8, 0xE0#8, 0xCA#8], .pavgb 1#3 (.reg 2#3)),
    ([0x0F#8, 0xE3#8, 0xCA#8], .pavgw 1#3 (.reg 2#3)),
    ([0x0F#8, 0xE4#8, 0xCA#8], .pmulhuw 1#3 (.reg 2#3)),
    ([0x0F#8, 0xEA#8, 0xCA#8], .pminsw 1#3 (.reg 2#3)),
    ([0x0F#8, 0xEE#8, 0xCA#8], .pmaxsw 1#3 (.reg 2#3)),
    ([0x0F#8, 0xF6#8, 0xCA#8], .psadbw 1#3 (.reg 2#3)),
    ([0x0F#8, 0xE7#8, 0x0A#8], .movntq 1#3 (.a32 none (some 2#3) none 0#32)),
    ([0x0F#8, 0xF7#8, 0xCA#8], .maskmovq 1#3 2#3 none .a32)] : List (List Byte × Instr)).all decodesTo = true := by decide

theorem test_decode_xmm_part_1 : ([
    ([0x0F#8, 0x10#8, 0xCA#8], Instr.movupsLoad 1#3 (.reg 2#3)),
    ([0x0F#8, 0x11#8, 0xCA#8], .movupsStore 1#3 (.reg 2#3)),
    ([0xF3#8, 0x0F#8, 0x10#8, 0xCA#8], .movssLoad 1#3 (.reg 2#3)),
    ([0xF3#8, 0x0F#8, 0x11#8, 0xCA#8], .movssStore 1#3 (.reg 2#3)),
    ([0x0F#8, 0x12#8, 0x0A#8], .movlpsLoad 1#3 (.a32 none (some 2#3) none 0#32)),
    ([0x0F#8, 0x12#8, 0xCA#8], .movhlps 1#3 2#3),
    ([0x0F#8, 0x13#8, 0x0A#8], .movlpsStore 1#3 (.a32 none (some 2#3) none 0#32)),
    ([0x0F#8, 0x14#8, 0xCA#8], .unpcklps 1#3 (.reg 2#3)),
    ([0x0F#8, 0x15#8, 0xCA#8], .unpckhps 1#3 (.reg 2#3)),
    ([0x0F#8, 0x16#8, 0x0A#8], .movhpsLoad 1#3 (.a32 none (some 2#3) none 0#32)),
    ([0x0F#8, 0x16#8, 0xCA#8], .movlhps 1#3 2#3),
    ([0x0F#8, 0x17#8, 0x0A#8], .movhpsStore 1#3 (.a32 none (some 2#3) none 0#32)),
    ([0x0F#8, 0x18#8, 0x02#8], .prefetchnta (.a32 none (some 2#3) none 0#32)),
    ([0x0F#8, 0x18#8, 0x0A#8], .prefetcht0 (.a32 none (some 2#3) none 0#32)),
    ([0x0F#8, 0x18#8, 0x12#8], .prefetcht1 (.a32 none (some 2#3) none 0#32)),
    ([0x0F#8, 0x18#8, 0x1A#8], .prefetcht2 (.a32 none (some 2#3) none 0#32)),
    ([0x0F#8, 0x28#8, 0xCA#8], .movapsLoad 1#3 (.reg 2#3)),
    ([0x0F#8, 0x29#8, 0xCA#8], .movapsStore 1#3 (.reg 2#3)),
    ([0x0F#8, 0x2A#8, 0xCA#8], .cvtpi2ps 1#3 (.reg 2#3)),
    ([0xF3#8, 0x0F#8, 0x2A#8, 0xCA#8], .cvtsi2ss 1#3 (.reg 2#3)),
    ([0x0F#8, 0x2B#8, 0x0A#8], .movntps 1#3 (.a32 none (some 2#3) none 0#32)),
    ([0x0F#8, 0x2C#8, 0xCA#8], .cvttps2pi 1#3 (.reg 2#3))] : List (List Byte × Instr)).all decodesTo = true := by decide

theorem test_decode_xmm_part_2 : ([
    ([0xF3#8, 0x0F#8, 0x2C#8, 0xCA#8], Instr.cvttss2si 1#3 (.reg 2#3)),
    ([0x0F#8, 0x2D#8, 0xCA#8], .cvtps2pi 1#3 (.reg 2#3)),
    ([0xF3#8, 0x0F#8, 0x2D#8, 0xCA#8], .cvtss2si 1#3 (.reg 2#3)),
    ([0x0F#8, 0x2E#8, 0xCA#8], .ucomiss 1#3 (.reg 2#3)),
    ([0x0F#8, 0x2F#8, 0xCA#8], .comiss 1#3 (.reg 2#3)),
    ([0x0F#8, 0x50#8, 0xCA#8], .movmskps 1#3 2#3),
    ([0x0F#8, 0x51#8, 0xCA#8], .sqrtps 1#3 (.reg 2#3)),
    ([0xF3#8, 0x0F#8, 0x51#8, 0xCA#8], .sqrtss 1#3 (.reg 2#3)),
    ([0x0F#8, 0x52#8, 0xCA#8], .rsqrtps 1#3 (.reg 2#3)),
    ([0xF3#8, 0x0F#8, 0x52#8, 0xCA#8], .rsqrtss 1#3 (.reg 2#3)),
    ([0x0F#8, 0x53#8, 0xCA#8], .rcpps 1#3 (.reg 2#3)),
    ([0xF3#8, 0x0F#8, 0x53#8, 0xCA#8], .rcpss 1#3 (.reg 2#3)),
    ([0x0F#8, 0x54#8, 0xCA#8], .andps 1#3 (.reg 2#3)),
    ([0x0F#8, 0x55#8, 0xCA#8], .andnps 1#3 (.reg 2#3)),
    ([0x0F#8, 0x56#8, 0xCA#8], .orps 1#3 (.reg 2#3)),
    ([0x0F#8, 0x57#8, 0xCA#8], .xorps 1#3 (.reg 2#3)),
    ([0x0F#8, 0x58#8, 0xCA#8], .addps 1#3 (.reg 2#3)),
    ([0xF3#8, 0x0F#8, 0x58#8, 0xCA#8], .addss 1#3 (.reg 2#3)),
    ([0x0F#8, 0x59#8, 0xCA#8], .mulps 1#3 (.reg 2#3)),
    ([0xF3#8, 0x0F#8, 0x59#8, 0xCA#8], .mulss 1#3 (.reg 2#3)),
    ([0x0F#8, 0x5C#8, 0xCA#8], .subps 1#3 (.reg 2#3)),
    ([0xF3#8, 0x0F#8, 0x5C#8, 0xCA#8], .subss 1#3 (.reg 2#3)),
    ([0x0F#8, 0x5D#8, 0xCA#8], .minps 1#3 (.reg 2#3)),
    ([0xF3#8, 0x0F#8, 0x5D#8, 0xCA#8], .minss 1#3 (.reg 2#3)),
    ([0x0F#8, 0x5E#8, 0xCA#8], .divps 1#3 (.reg 2#3)),
    ([0xF3#8, 0x0F#8, 0x5E#8, 0xCA#8], .divss 1#3 (.reg 2#3)),
    ([0x0F#8, 0x5F#8, 0xCA#8], .maxps 1#3 (.reg 2#3)),
    ([0xF3#8, 0x0F#8, 0x5F#8, 0xCA#8], .maxss 1#3 (.reg 2#3))] : List (List Byte × Instr)).all decodesTo = true := by decide

theorem test_decode_state_and_compare : ([
    ([0x0F#8, 0xAE#8, 0x02#8], Instr.fxsave (.a32 none (some 2#3) none 0#32)),
    ([0x0F#8, 0xAE#8, 0x0A#8], .fxrstor (.a32 none (some 2#3) none 0#32)),
    ([0x0F#8, 0xAE#8, 0x12#8], .ldmxcsr (.a32 none (some 2#3) none 0#32)),
    ([0x0F#8, 0xAE#8, 0x1A#8], .stmxcsr (.a32 none (some 2#3) none 0#32)),
    ([0x0F#8, 0xAE#8, 0xF8#8], .sfence),
    ([0x0F#8, 0xC2#8, 0xCA#8, 0x06#8], .cmpps 1#3 (.reg 2#3) 6#8),
    ([0xF3#8, 0x0F#8, 0xC2#8, 0xCA#8, 0x06#8], .cmpss 1#3 (.reg 2#3) 6#8),
    ([0x0F#8, 0xC6#8, 0x0A#8, 0x85#8], .shufps 1#3 (.mem (.a32 none (some 2#3) none 0#32)) 0x85#8)] : List (List Byte × Instr)).all decodesTo = true := by decide

theorem test_decode_system : ([
    ([0x0F#8, 0x30#8], Instr.wrmsr),
    ([0x0F#8, 0x31#8], .rdtsc),
    ([0x0F#8, 0x32#8], .rdmsr),
    ([0x0F#8, 0xA2#8], .cpuid)] : List (List Byte × Instr)).all decodesTo = true := by decide

/-- Addressing forms: SIB with scale and disp8 (V9), 16-bit by prefix 67h (V10), override, disp32 alone, [esp], [ebp] (R108 to R111). -/
theorem test_decode_addressing : ([
    ([0x0F#8, 0x6F#8, 0x44#8, 0x8B#8, 0x08#8], Instr.movqLoad 0#3 (.mem (.a32 none (some 3#3) (some (1#3, 2#2)) 8#32))),
    ([0x67#8, 0x0F#8, 0x6F#8, 0x07#8], .movqLoad 0#3 (.mem (.a16 none (some .bx) 0#16))),
    ([0x67#8, 0x0F#8, 0x6F#8, 0x06#8, 0x34#8, 0x12#8], .movqLoad 0#3 (.mem (.a16 none none 0x1234#16))),
    ([0x36#8, 0x64#8, 0x0F#8, 0x6F#8, 0x05#8, 0x78#8, 0x56#8, 0x34#8, 0x12#8],
      .movqLoad 0#3 (.mem (.a32 (some .fs) none none 0x12345678#32))),
    ([0x0F#8, 0x6F#8, 0x04#8, 0x24#8], .movqLoad 0#3 (.mem (.a32 none (some 4#3) none 0#32))),
    ([0x0F#8, 0x6F#8, 0x45#8, 0xFE#8], .movqLoad 0#3 (.mem (.a32 none (some 5#3) none 0xFFFFFFFE#32))),
    ([0x0F#8, 0x6F#8, 0x04#8, 0x6D#8, 1#8, 0#8, 0#8, 0x80#8],
      .movqLoad 0#3 (.mem (.a32 none none (some (5#3, 1#2)) 0x80000001#32))),
    ([0xF3#8, 0x0F#8, 0x10#8, 0x8C#8, 0xF7#8, 0#8, 1#8, 0#8, 0#8],
      .movssLoad 1#3 (.mem (.a32 none (some 7#3) (some (6#3, 3#2)) 0x100#32))),
    ([0x26#8, 0x67#8, 0x0F#8, 0xF7#8, 0xCA#8], .maskmovq 1#3 2#3 (some .es) .a16)]
    : List (List Byte × Instr)).all decodesTo = true := by decide

/-- The encoder in other forms of the operand writes the shorter bytes (R108 to R110). -/
theorem test_encode_forms :
    encodeAs ⟨.byte, false⟩ .c32 (.movqLoad 0#3 (.mem (.a32 none (some 5#3) none 0xFFFFFFFE#32))) = [0x0F#8, 0x6F#8, 0x45#8, 0xFE#8] ∧
    encodeAs ⟨.absent, false⟩ .c32 (.movqLoad 0#3 (.mem (.a32 none (some 4#3) none 0#32))) = [0x0F#8, 0x6F#8, 0x04#8, 0x24#8] ∧
    encodeAs ⟨.absent, true⟩ .c32 (.movqLoad 0#3 (.mem (.a32 none (some 3#3) none 0#32))) = [0x0F#8, 0x6F#8, 0x04#8, 0x23#8] ∧
    encodeAs ⟨.absent, false⟩ .c32 (.movqLoad 0#3 (.mem (.a32 none (some 5#3) none 0#32))) =
      [0x0F#8, 0x6F#8, 0x85#8, 0#8, 0#8, 0#8, 0#8] ∧
    encodeAs ⟨.byte, false⟩ .c16 (.movqLoad 0#3 (.mem (.a16 none (some .bp) 0#16))) = [0x0F#8, 0x6F#8, 0x46#8, 0#8] := by decide

/-- Words of spec/opcode_table.json as it numbers their bits. -/
theorem test_decode_table_words : decodeTableWord 16 0x770F = some .emms ∧
    decodeTableWord 32 0x00580FF3 = some (.addss 0#3 (.mem (.a32 none (some 0#3) none 0#32))) ∧
    decodeTableWord 24 0x00600F = some (.punpcklbw 0#3 (.mem (.a32 none (some 0#3) none 0#32))) := by decide

/-- Byte strings that are no instruction, by name, and invalid forms with all their bytes (V110, V149, V183, V216 to V221; R106, R114, R119, R120; 47 R289). -/
theorem test_decode_refuses :
    decode .c32 [0x0F#8, 0x13#8, 0xCA#8] = .ok (.invalidForm, 3) ∧ decode .c32 [0x0F#8, 0xAE#8, 0xD0#8] = .ok (.invalidForm, 3) ∧
    decode .c32 [0x0F#8, 0x71#8, 0x30#8, 4#8] = .ok (.invalidForm, 4) ∧ decode .c32 [0x0F#8, 0x71#8, 0xC8#8, 4#8] = .ok (.invalidForm, 4) ∧
    decode .c32 [0x0F#8, 0xC5#8, 0x44#8, 0x24#8, 1#8, 2#8] = .ok (.invalidForm, 6) ∧
    decode .c32 [0xF0#8, 0x0F#8, 0x7F#8, 3#8] = .ok (.locked, 4) ∧ decode .c32 [0x66#8, 0x0F#8, 0x6F#8, 0xC1#8] = .error .reservedPrefix ∧
    decode .c32 [0xF3#8, 0x0F#8, 0x6F#8, 0xC1#8] = .error .reservedPrefix ∧ decode .c32 [0x0F#8, 0x0B#8] = .error .notInstruction ∧
    decode .c32 [0x0F#8, 0xC2#8, 0xC1#8, 8#8] = .ok (.instr (.cmpps 0#3 (.reg 1#3) 8#8), 4) ∧
    decode .c32 [0x0F#8, 0x18#8, 0x20#8] = .ok (.reservedHint, 3) := by decide

/-! ## One step each: the vectors of spec/95_test_vectors, sections 3.1 to 3.13 -/

/-- A launch state with a program of 32 bytes at 00100000h, all that 70 R423 leaves arbitrary at its value after reset. -/
def startAt (cpl : BitVec 2) : State :=
  State.launch { State.reset with plat := { defaultPlatform with codeLen := 32 } } cpl false 0x00100000#32

/-- The launch state the vectors start from (95, section 1). -/
def start : State := startAt 3#2

/-- Bytes placed in memory. -/
def State.put (s : State) (a : Addr) (bs : List Byte) : State := { s with mem := s.mem.writeBytes a bs }

/-- One step over the given bytes. -/
def run (s : State) (bs : List Byte) : Host.Outcome State Fault Refusal := step (State.put s 0x00100000#32 bs)

/-- It completes past the bytes, and what it leaves passes. -/
def goes (s : State) (bs : List Byte) (f : State → Bool) : Bool :=
  match run s bs with
  | .next t => f t && t.pc == 0x00100000#32 + BitVec.ofNat 32 bs.length
  | _ => false

/-- It raises: the faulted state is the state before, but for MXCSR (60_exceptions R396). -/
def raises (s : State) (bs : List Byte) (mx : Dword) (f : State → Fault) : Bool :=
  match run s bs with
  | .fault g => g == f { State.put s 0x00100000#32 bs with mxcsr := mx }
  | _ => false

/-- It is refused by that name. -/
def refuses (s : State) (bs : List Byte) (f : Refusal) : Bool :=
  match run s bs with
  | .refused g => g == f
  | _ => false

/-! ## Witnesses: a concrete state and operands that meet the hypotheses of each statement -/

/-- A launch state at CPL 0 in which nothing stops an instruction. -/
def ready : State := startAt 0#2

/-- An aligned memory operand. -/
def atAligned : Mem := .a32 none none none 0x00002000#32

/-- A memory operand whose bytes wrap past FFFFFFFFh. -/
def atTop : Mem := .a32 none none none 0xFFFFFFFF#32

/-- One range of addresses shut out. -/
def shutOut (base size : Nat) (k : RegionKind) : State := { ready with plat := { ready.plat with regions := [⟨base, size, k⟩] } }

/-- A program placed where the state fetches. -/
def loaded (bs : List Byte) : State := State.put ready 0x00100000#32 bs

/-- Whether an outcome is a next state. -/
def completes : Host.Outcome State Fault Refusal → Bool
  | .next _ => true
  | _ => false

theorem exists_next {o : Host.Outcome State Fault Refusal} (h : completes o = true) : ∃ t, o = .next t := by
  cases o <;> simp_all [completes]

theorem witness_StepRunsTheDecodedInstruction :
    decode ready.plat.codeSize (loaded [0x0F#8, 0x77#8]).fetchBytes = .ok (.instr .emms, 2) ∧ 2 ≤ 15 ∧ Instr.emms.wf = true := by
  decide

theorem witness_DecodeOfEncodeIsTheInstruction :
    (Instr.movssStore 7#3 (.mem (.a32 (some .gs) (some 4#3) (some (7#3, 3#2)) 0xFFFFFFFF#32))).wf = true := by decide

theorem witness_StepStopsOnItsBytes :
    inCode ready.plat (State.fetchAddr { ready with pc := 0x00100020#32 }) = false ∧
    (let s := { ready with pc := 0x0010001F#32 }
     decode .c32 (State.put s 0x0010001F#32 [0x0F#8]).fetchBytes = .error .outOfBytes ∧ s.programLeft = 1) ∧
    (let s := { State.put ready 0xFFFFFFFF#32 [0x0F#8] with
       pc := 0xFFFFFFFF#32, plat := { ready.plat with codeBase := 0xFFFFFFFF#32, codeLen := 32 } }
     decode .c32 s.fetchBytes = .error .outOfBytes ∧ s.fetchAddr.toNat + s.programLeft = 2 ^ 32) ∧
    decode .c32 (loaded [0x0F#8, 0x0B#8]).fetchBytes = .error .notInstruction ∧
    decode .c32 (loaded [0xF3#8, 0x0F#8, 0x77#8]).fetchBytes = .error .reservedPrefix ∧
    decode .c32 (loaded (List.replicate 14 0x26#8 ++ [0x0F#8, 0x77#8])).fetchBytes = .ok (.instr .emms, 16) ∧
    0x90#8 ∉ [0x26#8, 0x2E#8, 0x36#8, 0x3E#8, 0x64#8, 0x65#8, 0x67#8, 0xF3#8, 0x66#8, 0xF2#8, 0xF0#8, 0x0F#8] ∧
    (let i := Instr.paddb 0#3 (.mem (.a32 none none none 0x00002000#32))
     let bytes := List.replicate 9 0x26#8 ++ encodeAs canonicalForm .c32 i
     i.wf = true ∧ 15 < bytes.length ∧ bytes.isPrefixOf (loaded bytes).fetchBytes = true) := by decide

theorem witness_PrefixesBeforeInstructions : (Instr.paddb 0#3 (.reg 7#3)).wf = true ∧
    frameOf (.paddb 0#3 (.reg 7#3)) ≠ .system ∧ Instr.rdtsc.wf = true ∧ frameOf .rdtsc = .system ∧
    decode .c32 (loaded [0xF0#8, 0x0F#8, 0x77#8]).fetchBytes = .ok (.locked, 3) ∧
    decode .c32 (loaded [0x0F#8, 0x71#8, 0xC8#8]).fetchBytes = .ok (.invalidForm, 4) := by decide

/-- Any state with its memory in canonical form, and a launched one. -/
theorem witness_InvariantHoldsAtReset : State.reset.mem.wf = true ∧ launched start = true := by decide

theorem witness_StepKeepsTheInvariant : (loaded [0x0F#8, 0x77#8]).inv = true ∧ ∃ t, step (loaded [0x0F#8, 0x77#8]) = .next t :=
  ⟨by decide, exists_next (by decide)⟩

theorem witness_StepKeepsTheProgramBytes : inCode ready.plat 0x00100000#32 = true ∧ inCode ready.plat 0x0010000E#32 = true ∧
    ∃ t, step (loaded [0x0F#8, 0x7F#8, 0x05#8, 0#8, 0x20#8, 0#8, 0#8]) = .next t :=
  ⟨by decide, by decide, exists_next (by decide)⟩

theorem witness_StepFallsThrough : ∃ t, step (loaded [0x0F#8, 0xAE#8, 0xF8#8]) = .next t := exists_next (by decide)

theorem witness_SystemStateAndEflagsAreKept : (match exec (.comiss 0#3 (.reg 1#3)) ready with
    | .next t => t.eflags != ready.eflags
    | _ => false) = true := by decide

theorem witness_MxcsrFlagsAreSticky : ∃ t, exec (.mulps 0#3 (.mem atAligned)) ready = .next t := exists_next (by decide)

theorem witness_MmxTransitionByFrame : frameOf (.movdStore 0#3 (.mem atTop)) = .mmx .base ∧
    (∃ t, exec (.movdStore 0#3 (.mem atTop)) ready = .next t) ∧ frameOf (.cvtpi2ps 0#3 (.reg 0#3)) = .xmmToMmx ∧
    (∃ t, exec (.cvtpi2ps 0#3 (.reg 0#3)) ready = .next t) ∧ frameOf (.movhlps 0#3 1#3) = .xmm ∧
    ∃ t, exec (.movhlps 0#3 1#3) ready = .next t :=
  ⟨rfl, exists_next (by decide), rfl, exists_next (by decide), rfl, exists_next (by decide)⟩

theorem witness_FaultsArePrecise : (match exec (.addss 0#3 (.reg 1#3)) ({ ready with mxcsr := 0#32 }.setXm 0#3 0x7FA00000#128) with
    | .fault (.xm t) => t.mxcsr == 1#32
    | _ => false) = true ∧ (match step (loaded (List.replicate 14 0x26#8 ++ [0x0F#8, 0x77#8])) with
    | .fault (.gp t) => t == loaded (List.replicate 14 0x26#8 ++ [0x0F#8, 0x77#8])
    | _ => false) = true := by decide

theorem witness_MmxChecksInOrder : frameOf .emms = .mmx .base ∧ frameOf (.pavgb 0#3 (.reg 0#3)) = .mmx .three ∧
    present .three { ready.plat with gen := .pentiumII }.gen = false ∧ State.em { ready with cr0 := 4#32 } = true ∧
    (State.em { ready with cr0 := 8#32 } = false ∧ State.ts { ready with cr0 := 8#32 } = true) ∧
    present .three ready.plat.gen = true ∧ ready.ts = false ∧ ({ ready with x87Pending := true } : State).x87Pending = true := by
  decide

theorem witness_XmmStateAndHintChecks : frameOf (.addps 0#3 (.reg 0#3)) = .xmm ∧ frameOf (.cvtps2pi 0#3 (.reg 0#3)) = .xmmToMmx ∧
    frameOf (.fxsave atAligned) = .state ∧ frameOf .sfence = .hint ∧ State.osfxsr { ready with cr4 := 0#32 } = false ∧
    xmmReady { ready with x87Pending := true } = true ∧ State.ts { ready with cr0 := 8#32 } = true ∧ ready.osfxsr = true ∧
    Platform.fxsr { ready.plat with gen := .pentiumMMX } = false ∧ ready.plat.fxsr = true ∧ Gen.pentiumMMX ≠ .pentiumIII := by
  decide

theorem witness_MisalignedOperandRaisesGp : xmmReady ready = true ∧ fxReady ready = true ∧
    aligned16 (ready.lin (.a32 none none none 0x2001#32)) = false ∧ aligned16 (ready.lin (.a32 none none none 0x200F#32)) = false := by
  decide

/-- An access of each width with its first or its last byte shut out, and MASKMOVQ with the last of its selected bytes. -/
theorem witness_FirstInadmissibleByteRaisesPf :
    (memAccess (.pinsrw 0#3 (.mem atAligned) 0#8) = some ⟨atAligned, .read, 2, false⟩ ∧ checksPass (.pinsrw 0#3 (.mem atAligned) 0#8) ready = true ∧
      memAdmit (shutOut 0x2001 1 .absent).plat .read (ready.lin atAligned + BitVec.ofNat 32 0) = true ∧
      memAdmit (shutOut 0x2001 1 .absent).plat .read (ready.lin atAligned + BitVec.ofNat 32 1) = false) ∧
    (memAccess (.stmxcsr atAligned) = some ⟨atAligned, .write, 4, false⟩ ∧ checksPass (.stmxcsr atAligned) ready = true ∧
      memAdmit (shutOut 0x2000 1 .noWrite).plat .write (ready.lin atAligned + BitVec.ofNat 32 0) = false) ∧
    (memAccess (.cvtpi2ps 0#3 (.mem atAligned)) = some ⟨atAligned, .read, 8, false⟩ ∧
      checksPass (.cvtpi2ps 0#3 (.mem atAligned)) ready = true ∧
      (∀ j < 7, memAdmit (shutOut 0x2007 1 .noRead).plat .read (ready.lin atAligned + BitVec.ofNat 32 j) = true) ∧
      memAdmit (shutOut 0x2007 1 .noRead).plat .read (ready.lin atAligned + BitVec.ofNat 32 7) = false) ∧
    (memAccess (.movntps 0#3 atAligned) = some ⟨atAligned, .write, 16, true⟩ ∧ aligned16 (ready.lin atAligned) = true ∧
      (∀ j < 15, memAdmit (shutOut 0x200F 1 .noWrite).plat .write (ready.lin atAligned + BitVec.ofNat 32 j) = true) ∧
      memAdmit (shutOut 0x200F 1 .noWrite).plat .write (ready.lin atAligned + BitVec.ofNat 32 15) = false) ∧
    (memAccess (.fxrstor atAligned) = some ⟨atAligned, .read, 512, true⟩ ∧ checksPass (.fxrstor atAligned) ready = true ∧
      memAdmit (shutOut 0x2000 1 .absent).plat .read (ready.lin atAligned + BitVec.ofNat 32 0) = false) ∧
    (let s := ((shutOut 0x3007 1 .noWrite).setMm 2#3 0x80FFFFFFFFFFFF80#64).setX 7#3 0x3000#32
     mmxReady .three s = true ∧ (elem 8 (s.mm 2#3) 7).getLsbD 7 = true ∧
       (∀ j < 7, memAdmit s.plat .write (s.maskByteAddr none .a32 j) = true) ∧
       memAdmit s.plat .write (s.maskByteAddr none .a32 7) = false) := by decide

/-- The last byte of an access a device's, and the last byte of a store in the program. -/
theorem witness_AccessesTheModelRefuses :
    (memAccess (.movqLoad 0#3 (.mem atAligned)) = some ⟨atAligned, .read, 8, false⟩ ∧
      checksPass (.movqLoad 0#3 (.mem atAligned)) ready = true ∧
      (∀ j < 8, memAdmit (shutOut 0x2007 1 .device).plat .read (ready.lin atAligned + BitVec.ofNat 32 j) = true) ∧
      (∀ j < 7, inDevice (shutOut 0x2007 1 .device).plat (ready.lin atAligned + BitVec.ofNat 32 j) = false) ∧
      inDevice (shutOut 0x2007 1 .device).plat (ready.lin atAligned + BitVec.ofNat 32 7) = true) ∧
    (let m : Mem := .a32 none none none 0x000FFFF9#32
     memAccess (.movqStore 0#3 (.mem m)) = some ⟨m, .write, 8, false⟩ ∧
       (∀ j < 7, inCode ready.plat (ready.lin m + BitVec.ofNat 32 j) = false) ∧
       inCode ready.plat (ready.lin m + BitVec.ofNat 32 7) = true) ∧
    (let s := ((shutOut 0x3007 1 .device).setMm 2#3 0x8000000000000080#64).setX 7#3 0x3000#32
     mmxReady .three s = true ∧ (elem 8 (s.mm 2#3) 7).getLsbD 7 = true ∧ inDevice s.plat (s.maskByteAddr none .a32 7) = true ∧
       inDevice s.plat (s.maskByteAddr none .a32 0) = false ∧ memAdmit s.plat .write (s.maskByteAddr none .a32 7) = true) ∧
    (let s := (ready.setMm 2#3 0x8000000000000080#64).setX 7#3 0x000FFFF9#32
     (elem 8 (s.mm 2#3) 7).getLsbD 7 = true ∧ inCode s.plat (s.maskByteAddr none .a32 0) = false ∧
       inCode s.plat (s.maskByteAddr none .a32 7) = true) := by decide

/-- An SNaN under IM = 0 and a denormal under DM = 0 (before the computation); 0.1 + 0.2 and a third under PM = 0 (after it). -/
theorem witness_UnmaskedConditionRaises : xmmReady ready = true ∧ ready.x87Pending = false ∧
    reachable .read 16 true ready (.mem atAligned) = true ∧ reachable .read 8 false ready (.mem atTop) = true ∧
    reachable .read 4 false ready (.mem atTop) = true ∧
    (∀ f ∈ [fpAdd 0x1F00#32, fpDiv true 0x1F00#32, fpMax, fpCmp 1#3], (f 0x7FA00000#32 0#32).pre &&& ~~~(mxMasks 0x1F00#32) ≠ 0#6) ∧
    flagDE &&& ~~~(mxMasks 0x1E80#32) ≠ 0#6 ∧ SNaNBits 0x7FA00000#32 ∧ DenormalBits 1#32 ∧ ¬NaNBits 1#32 ∧
    (fpAdd 0x0F80#32 0x3DCCCCCD#32 0x3E4CCCCD#32).pre &&& ~~~(mxMasks 0x0F80#32) = 0#6 ∧
    (fpAdd 0x0F80#32 0x3DCCCCCD#32 0x3E4CCCCD#32).post &&& ~~~(mxMasks 0x0F80#32) ≠ 0#6 ∧
    (intToFp 0x0F80#32 0x01000001#32).post &&& ~~~(mxMasks 0x0F80#32) ≠ 0#6 ∧
    (fpToInt .zero 0x3F000000#32).post &&& ~~~(mxMasks 0x0F80#32) ≠ 0#6 := by decide

theorem witness_MmxMovesToRegisters : mmxReady .base ready = true ∧ reachable .read 4 false ready (.mem atTop) = true ∧
    reachable .read 8 false ready (.mem atTop) = true := by decide
theorem witness_MmxStoreToMemory : ready.mem.wf = true ∧ mmxReady .base ready = true ∧ mmxReady .three ready = true ∧
    reachable .write 4 false ready (.mem atTop) = true ∧ reachable .write 8 false ready (.mem atTop) = true := by decide
theorem witness_EmmsEmptiesTheTags : mmxReady .base { ready with plat := { ready.plat with gen := .pentiumMMX } } = true := by decide
theorem witness_WrapAddSubResults : mmxReady .base ready = true ∧ reachable .read 8 false ready (.mem atTop) = true := by decide
theorem witness_SaturationResults : mmxReady .base ready = true ∧ reachable .read 8 false ready (.reg 7#3) = true := by decide
theorem witness_MultiplyResults : mmxReady .base ready = true ∧ mmxReady .three ready = true ∧
    reachable .read 8 false ready (.mem atAligned) = true := by decide
theorem witness_CompareAndLogicalResults : mmxReady .base ready = true ∧ reachable .read 8 false ready (.mem atTop) = true := by decide
theorem witness_ShiftByOperandResults : mmxReady .base ready = true ∧ reachable .read 8 false ready (.reg 1#3) = true := by decide
theorem witness_ShiftByImmediateResults : mmxReady .base ready = true := by decide
theorem witness_PackAndUnpackResults : mmxReady .base ready = true ∧ reachable .read 8 false ready (.mem atTop) = true ∧
    reachable .read 4 false ready (.mem atTop) = true := by decide
theorem witness_AverageExtremeAndSadResults : mmxReady .three ready = true ∧ reachable .read 8 false ready (.mem atTop) = true := by
  decide
theorem witness_WordShuffleAndExtractResults : mmxReady .three ready = true ∧ reachable .read 8 false ready (.mem atTop) = true ∧
    reachable .read 2 false ready (.mem atTop) = true := by decide

/-- Bytes 0 and 7 selected, at the two ends of the eight addresses; the six between them shut out. -/
theorem witness_MaskmovqStoresSelectedBytes :
    let s := ((shutOut 0x3001 6 .absent).setMm 2#3 0x8000000000000080#64).setX 7#3 0x3000#32
    mmxReady .three s = true ∧ s.mem.wf = true ∧
      ∀ i < 8, (elem 8 (s.mm 2#3) i).getLsbD 7 = true → byteOpen s.plat .write (s.maskByteAddr none .a32 i) = true := by decide

theorem witness_XmmMovesToRegisters : xmmReady ready = true ∧ reachable .read 16 true ready (.mem atAligned) = true ∧
    reachable .read 16 false ready (.mem atTop) = true ∧ reachable .read 8 false ready (.mem atTop) = true ∧
    reachable .read 4 false ready (.mem atTop) = true := by decide
theorem witness_XmmStoreToMemory : xmmReady ready = true ∧ ready.mem.wf = true ∧ reachable .write 16 true ready (.mem atAligned) = true ∧
    reachable .write 16 false ready (.mem atTop) = true ∧ reachable .write 8 false ready (.mem atTop) = true ∧
    reachable .write 4 false ready (.mem atTop) = true := by decide
theorem witness_XmmLogicalAndShuffleResults : xmmReady ready = true ∧ reachable .read 16 true ready (.mem atAligned) = true := by decide

/-- With all masks 1 no set of flags is unmasked. -/
theorem witness_AddSubMulResults : xmmReady ready = true ∧ reachable .read 16 true ready (.mem atAligned) = true ∧
    reachable .read 4 false ready (.mem atTop) = true ∧ noneUnmasked ready 63#6 := by decide
theorem witness_DivideAndSqrtResults : xmmReady ready = true ∧ reachable .read 16 true ready (.reg 0#3) = true ∧
    reachable .read 4 false ready (.mem atTop) = true ∧ noneUnmasked ready 63#6 := by decide
theorem witness_MaxMinAndCompareResults : xmmReady ready = true ∧ reachable .read 16 true ready (.mem atAligned) = true ∧
    reachable .read 4 false ready (.mem atTop) = true ∧ noneUnmasked ready 63#6 ∧ noneUnmasked { ready with mxcsr := 0#32 } noFlags ∧
    NaNBits 0x7FC00000#32 ∧ ¬SNaNBits 0x7FC00000#32 ∧ SNaNBits 0x7FA00000#32 ∧ ZeroBits 0x80000000#32 ∧ ¬NaNBits 0x7F800000#32 ∧
    DenormalBits 1#32 ∧ relation 0#32 0x80000000#32 = .eq ∧ relation 0#32 1#32 = .lt ∧ relation 1#32 0#32 = .gt ∧
    relation 0x7FC00000#32 0#32 = .un ∧ (3#8).toNat < 4 ∧ 4 ≤ (4#8).toNat ∧ (7#8).toNat ≤ 7 ∧ 7 < (8#8).toNat := by
  decide
theorem witness_ComissResults : xmmReady ready = true ∧ noneUnmasked ready 63#6 ∧ reachable .read 4 false ready (.mem atTop) = true ∧
    SNaNBits 0x7F800001#32 ∧ ¬SNaNBits 0x7FC00000#32 ∧ DenormalBits 0x807FFFFF#32 ∧ ¬DenormalBits 0x00800000#32 := by decide

/-- A pattern at each end of each class. -/
theorem witness_ApproximationResults : xmmReady ready = true ∧ reachable .read 16 true ready (.mem atAligned) = true ∧
    reachable .read 4 false ready (.mem atTop) = true ∧ NaNBits 0x7F800001#32 ∧ ZeroBits 0x80000000#32 ∧ DenormalBits 1#32 ∧
    DenormalBits 0x007FFFFF#32 ∧ InfBits 0x7F800000#32 ∧ NormalBits 0x00800000#32 ∧ NormalBits 0x7F7FFFFF#32 := by decide

theorem witness_NanOperandsComeOutQuiet : NaNBits 0x7F800001#32 ∧ SNaNBits 0x7F800001#32 ∧ NaNBits 0xFFC00000#32 ∧
    ¬SNaNBits 0xFFC00000#32 := by decide
/-- The value of a zero of either sign is 0. -/
theorem fpVal_zero : fpVal 0#32 = 0 ∧ fpVal 0x80000000#32 = 0 := by
  constructor <;> simp [fpVal]

/-- The least positive denormal has a value. -/
theorem fpVal_least : fpVal 1#32 ≠ 0 := by
  have h : fpVal 1#32 = 1 * ((1 : Nat) : ℚ) * 2 ^ (-149 : ℤ) := by
    unfold fpVal
    rfl
  rw [h]
  positivity

theorem witness_SpecialArithmeticResults : (InfBits 0x7F800000#32 ∧ InfBits 0xFF800000#32 ∧ ZeroBits 0x80000000#32 ∧
    NormalBits 0x00800000#32 ∧ DenormalBits 0x007FFFFF#32 ∧ ¬NaNBits 0xFF800000#32 ∧ ¬ZeroBits 0x80000001#32 ∧
    ¬InfBits 0x7F7FFFFF#32) ∧ fpVal 0#32 + fpVal 0x80000000#32 = 0 ∧ fpVal 0x80000000#32 - fpVal 0#32 = 0 :=
  ⟨by decide, by simp [fpVal_zero], by simp [fpVal_zero]⟩

theorem witness_ArithmeticRoundsTheExactValue : (¬NaNBits 1#32 ∧ ¬InfBits 0x7F7FFFFF#32 ∧ ¬ZeroBits 1#32) ∧
    fpVal 1#32 + fpVal 0#32 ≠ 0 ∧ fpVal 1#32 - fpVal 0x80000000#32 ≠ 0 :=
  ⟨by decide, by simp [fpVal_zero, fpVal_least], by simp [fpVal_zero, fpVal_least]⟩

/-- A third, and a rest below the last of 25 bits. -/
theorem witness_RoundingIsCorrect : (let x : Exact := ⟨true, 1, 3, 0, false⟩; 0 < x.num ∧ 0 < x.den ∧ x.sticky = false) ∧
    (let x : Exact := ⟨false, 2 ^ 24, 1, 0, true⟩; 0 < x.num ∧ x.sticky = true ∧ x.den = 1 ∧ 2 ^ 24 ≤ x.num) ∧
    ∃ y : ℝ, ((2 ^ 24 : ℕ) : ℝ) * 2 ^ (0 : ℤ) < |y| ∧ |y| < (((2 ^ 24 : ℕ) : ℝ) + 1) * 2 ^ (0 : ℤ) ∧ (y < 0 ↔ false = true) := by
  refine ⟨by decide, by decide, 2 ^ 24 + 1 / 2, ?_, ?_, ?_⟩ <;> norm_num

theorem witness_OverflowUnderflowAndExactResults : 128 ≤ 128 ∧ 127 ≤ 127 ∧ 127 ≤ 149 ∧ (0x9F80#32).getLsbD 11 = true ∧
    (0x9F80#32).getLsbD 15 = true ∧ (0x1780#32).getLsbD 11 = false ∧ (0x1F80#32).getLsbD 15 = false ∧ NormalBits 0x00800000#32 ∧
    NormalBits 0xFF7FFFFF#32 := by decide
/-- A zero, a negative number, infinity, and the least and the greatest positive number. -/
theorem witness_SquareRootIsTheRoundedRoot : ZeroBits 0x80000000#32 ∧ (¬NaNBits 0x80000001#32 ∧ ¬ZeroBits 0x80000001#32) ∧
    InfBits 0x7F800000#32 ∧ (¬NaNBits 1#32 ∧ ¬ZeroBits 1#32 ∧ ¬InfBits 1#32 ∧ (1#32).getLsbD 31 = false) ∧
    ¬InfBits 0x7F7FFFFF#32 := by decide
theorem witness_RelationOrdersValues : NaNBits 0x7FC00000#32 ∧ ¬NaNBits 1#32 ∧ ¬InfBits 1#32 ∧ fpVal 1#32 < fpVal 2#32 ∧
    fpVal 0#32 = fpVal 0x80000000#32 ∧ InfBits 0xFF800000#32 ∧ 0xFF800000#32 ≠ 0x7F800000#32 := by decide +kernel
/-- Both ends of the exact integers, a NaN, and numbers that round inside the range and outside it. -/
theorem witness_IntegerConversionsRound : 0x7FFFFFFF#32 ≠ 0#32 ∧ -(2 ^ 24) ≤ (0xFF000000#32).toInt ∧ (0x01000000#32).toInt ≤ 2 ^ 24 ∧
    NaNBits 0x7F800001#32 ∧ InfBits 0xFF800000#32 ∧ (¬NaNBits 0xCF000000#32 ∧ ¬InfBits 0xCF000000#32) ∧
    fpToInt .nearest 0xCF000000#32 = ⟨0x80000000#32, noFlags, noFlags⟩ ∧ fpToInt .nearest 0x4F000000#32 = ⟨0x80000000#32, flagIE, noFlags⟩ := by
  decide
theorem witness_ConversionResults : xmmReady ready = true ∧ ready.x87Pending = false ∧
    reachable .read 8 false ready (.mem atTop) = true ∧ reachable .read 4 false ready (.reg 7#3) = true ∧ noneUnmasked ready 63#6 := by
  decide

/-- The lowest reserved bit set, and the greatest value with none. -/
theorem witness_LdmxcsrLoadsOrRaises : xmmReady ready = true ∧ reachable .read 4 false ready (.mem atAligned) = true ∧
    (State.put ready 0x2000#32 [0x40#8]).mem.readValue (ready.lin atAligned) 32 4 &&& 0xFFFF0040#32 ≠ 0#32 ∧
    (State.put ready 0x2000#32 [0xBF#8, 0xFF#8]).mem.readValue (ready.lin atAligned) 32 4 &&& 0xFFFF0040#32 = 0#32 := by decide

theorem witness_FxsaveWritesTheImage : fxReady ready = true ∧ ready.osfxsr = true ∧ ready.mem.wf = true ∧
    reachable .write 512 true ready (.mem atAligned) = true := by decide +kernel
theorem witness_FxrstorLoadsTheImage : fxReady ready = true ∧ fxReady { ready with cr4 := 0#32 } = true ∧
    reachable .read 512 true ready (.mem atAligned) = true ∧
    (State.put ready 0x2018#32 [0x40#8]).mem.readValue (ready.lin atAligned + BitVec.ofNat 32 24) 32 4 &&& 0xFFFF0040#32 ≠ 0#32 ∧
    (State.put ready 0x2018#32 [0xBF#8, 0xFF#8]).mem.readValue (ready.lin atAligned + BitVec.ofNat 32 24) 32 4 &&& 0xFFFF0040#32 = 0#32 := by
  decide +kernel
theorem witness_FxrstorUndoesFxsave : fxReady ready = true ∧ ready.osfxsr = true ∧ ready.inv = true ∧
    reachable .write 512 true ready (.mem atAligned) = true ∧ reachable .read 512 true ready (.mem atAligned) = true := by
  decide +kernel
theorem witness_HintsChangeNothing : ready.plat.gen = .pentiumIII ∧ 4 ≤ (4#3).toNat ∧ atAligned.wf = true ∧
    decode .c32 (loaded [0x0F#8, 0x18#8, 0x20#8]).fetchBytes = .ok (.reservedHint, 3) ∧
    decode .c32 (loaded (List.replicate 12 0x26#8 ++ [0x0F#8, 0x18#8, 0x20#8])).fetchBytes = .ok (.reservedHint, 15) ∧ 15 ≤ 15 ∧
    Gen.pentiumII ≠ .pentiumIII := by decide
theorem witness_RdtscReadsAGreaterValue : State.tsd { ready with cr4 := 4#32 } = true ∧ (1#2 ≠ 0#2) ∧ ready.tsd = false ∧
    ready.tscLast ≠ BitVec.allOnes 64 := by decide
theorem witness_RdmsrAndWrmsrResults : ready.cpl = 0#2 ∧ (ready.setX 1#3 0x10#32).x 1#3 = ready.plat.tscNumber ∧
    ready.plat.msrExists 0x11#32 = false ∧ Platform.msrExists { ready.plat with msrs := [0x11#32] } 0x11#32 = true ∧
    0x11#32 ≠ ready.plat.tscNumber := by decide
theorem witness_CpuidResults : ready.x 0#3 = 0#32 ∧ (ready.setX 0#3 1#32).x 0#3 = 1#32 := by decide

/-! ## The vectors -/

/-- V1 to V10: MOVD and MOVQ. -/
theorem test_transfer : (
    goes ((start.setX 0#3 0x89ABCDEF#32).setMm 1#3 0xFFFFFFFFFFFFFFFF#64) [0x0F#8, 0x6E#8, 0xC8#8]
      (fun t => t.mm 1#3 == 0x0000000089ABCDEF#64) &&
    goes (State.put (start.setX 3#3 0x00002000#32) 0x2000#32 [0xEF#8, 0xCD#8, 0xAB#8, 0x89#8]) [0x0F#8, 0x6E#8, 0x03#8]
      (fun t => t.mm 0#3 == 0x0000000089ABCDEF#64) &&
    goes (start.setMm 0#3 0x1122334455667788#64) [0x0F#8, 0x7E#8, 0xC0#8] (fun t => t.x 0#3 == 0x55667788#32) &&
    goes ((start.setX 3#3 0x00002000#32).setMm 1#3 0x1122334455667788#64) [0x0F#8, 0x7E#8, 0x0B#8]
      (fun t => t.mem.readBytes 0x2000#32 4 == [0x88#8, 0x77#8, 0x66#8, 0x55#8]) &&
    goes (State.put start 0x1000#32 [0x88#8, 0x77#8, 0x66#8, 0x55#8, 0x44#8, 0x33#8, 0x22#8, 0x11#8])
      [0x0F#8, 0x6F#8, 0x05#8, 0x00#8, 0x10#8, 0x00#8, 0x00#8]
      (fun t => t.mm 0#3 == 0x1122334455667788#64) &&
    goes (start.setMm 4#3 0x0102030405060708#64) [0x0F#8, 0x6F#8, 0xDC#8] (fun t => t.mm 3#3 == 0x0102030405060708#64) &&
    goes ((start.setX 3#3 0x00002000#32).setMm 3#3 0x0102030405060708#64) [0x0F#8, 0x7F#8, 0x1B#8]
      (fun t => t.mem.readBytes 0x2000#32 8 == [0x08#8, 0x07#8, 0x06#8, 0x05#8, 0x04#8, 0x03#8, 0x02#8, 0x01#8]) &&
    goes (start.setMm 4#3 0x0102030405060708#64) [0x0F#8, 0x7F#8, 0xE3#8] (fun t => t.mm 3#3 == 0x0102030405060708#64) &&
    goes (State.put ((start.setX 1#3 0x00000002#32).setX 3#3 0x00001000#32) 0x1010#32 [0x01#8, 0x02#8, 0x03#8, 0x04#8, 0x05#8, 0x06#8, 0x07#8, 0x08#8])
      [0x0F#8, 0x6F#8, 0x44#8, 0x8B#8, 0x08#8]
      (fun t => t.mm 0#3 == 0x0807060504030201#64) &&
    goes (State.put (start.setX 3#3 0x12341000#32) 0x1000#32 [0x01#8, 0x02#8, 0x03#8, 0x04#8, 0x05#8, 0x06#8, 0x07#8, 0x08#8])
      [0x67#8, 0x0F#8, 0x6F#8, 0x07#8]
      (fun t => t.mm 0#3 == 0x0807060504030201#64)) = true := by decide

/-- V11 to V18. -/
theorem test_wrap_and_saturate : (
    goes ((start.setMm 0#3 0x7F80FE0100FF8001#64).setMm 1#3 0x0180FF050101FF7F#64) [0x0F#8, 0xFC#8, 0xC1#8]
      (fun t => t.mm 0#3 == 0x8000FD0601007F80#64) &&
    goes ((start.setMm 0#3 0x7FFF8000FFFF0001#64).setMm 1#3 0x0001800000010001#64) [0x0F#8, 0xFD#8, 0xC1#8]
      (fun t => t.mm 0#3 == 0x8000000000000002#64) &&
    goes ((start.setMm 0#3 0xFFFFFFFF7FFFFFFF#64).setMm 1#3 0x0000000100000001#64) [0x0F#8, 0xFE#8, 0xC1#8]
      (fun t => t.mm 0#3 == 0x0000000080000000#64) &&
    goes ((start.setMm 0#3 0x7F80FE0100FF8001#64).setMm 1#3 0x0180FF050101FF7F#64) [0x0F#8, 0xEC#8, 0xC1#8]
      (fun t => t.mm 0#3 == 0x7F80FD060100807F#64) &&
    goes ((start.setMm 0#3 0x7FFF8000FFFF0001#64).setMm 1#3 0x0001800000010001#64) [0x0F#8, 0xED#8, 0xC1#8]
      (fun t => t.mm 0#3 == 0x7FFF800000000002#64) &&
    goes ((start.setMm 0#3 0x7F80FE0100FF8001#64).setMm 1#3 0x0180FF050101FF7F#64) [0x0F#8, 0xDC#8, 0xC1#8]
      (fun t => t.mm 0#3 == 0x80FFFF0601FFFF80#64) &&
    goes ((start.setMm 0#3 0x7FFF8000FFFF0001#64).setMm 1#3 0x0001800000010001#64) [0x0F#8, 0xDD#8, 0xC1#8]
      (fun t => t.mm 0#3 == 0x8000FFFFFFFF0002#64) &&
    goes ((start.setMm 0#3 0x7F80FE0100FF8001#64).setMm 1#3 0x0180FF050101FF7F#64) [0x0F#8, 0xF8#8, 0xC1#8]
      (fun t => t.mm 0#3 == 0x7E00FFFCFFFE8182#64)) = true := by decide

/-- V19 to V28. -/
theorem test_subtract_and_multiply : (
    goes ((start.setMm 0#3 0x0005800000000001#64).setMm 1#3 0x8003000100010002#64) [0x0F#8, 0xF9#8, 0xC1#8]
      (fun t => t.mm 0#3 == 0x80027FFFFFFFFFFF#64) &&
    goes ((start.setMm 0#3 0x0000000080000000#64).setMm 1#3 0x0000000100000001#64) [0x0F#8, 0xFA#8, 0xC1#8]
      (fun t => t.mm 0#3 == 0xFFFFFFFF7FFFFFFF#64) &&
    goes ((start.setMm 0#3 0x05FB000000000000#64).setMm 1#3 0x827E000000000000#64) [0x0F#8, 0xE8#8, 0xC1#8]
      (fun t => t.mm 0#3 == 0x7F80000000000000#64) &&
    goes ((start.setMm 0#3 0x0005800000007FFF#64).setMm 1#3 0x8003000100018000#64) [0x0F#8, 0xE9#8, 0xC1#8]
      (fun t => t.mm 0#3 == 0x7FFF8000FFFF7FFF#64) &&
    goes ((start.setMm 0#3 0x7F80FE0100FF8001#64).setMm 1#3 0x0180FF050101FF7F#64) [0x0F#8, 0xD8#8, 0xC1#8]
      (fun t => t.mm 0#3 == 0x7E00000000FE0000#64) &&
    goes ((start.setMm 0#3 0x0005800000007FFF#64).setMm 1#3 0x8003000100018000#64) [0x0F#8, 0xD9#8, 0xC1#8]
      (fun t => t.mm 0#3 == 0x00007FFF00000000#64) &&
    goes ((start.setMm 0#3 0x7FFB8000FFFF0002#64).setMm 1#3 0x7FFE8000FFFF0003#64) [0x0F#8, 0xE5#8, 0xC1#8]
      (fun t => t.mm 0#3 == 0x3FFC400000000000#64) &&
    goes ((start.setMm 0#3 0x7FFB8000FFFF0002#64).setMm 1#3 0x7FFE8000FFFF0003#64) [0x0F#8, 0xD5#8, 0xC1#8]
      (fun t => t.mm 0#3 == 0x800A000000010006#64) &&
    goes ((start.setMm 0#3 0x7FFB8000FFFF0002#64).setMm 1#3 0x7FFE8000FFFF0003#64) [0x0F#8, 0xF5#8, 0xC1#8]
      (fun t => t.mm 0#3 == 0x7FFC800A00000007#64) &&
    goes ((start.setMm 0#3 0x8000800000000000#64).setMm 1#3 0x8000800000000000#64) [0x0F#8, 0xF5#8, 0xC1#8]
      (fun t => t.mm 0#3 == 0x8000000000000000#64)) = true := by decide

/-- V29 to V38. -/
theorem test_compare_and_logic : (
    goes ((start.setMm 0#3 0x7F80FE0100FF8001#64).setMm 1#3 0x7F7FFF050101FF7F#64) [0x0F#8, 0x74#8, 0xC1#8]
      (fun t => t.mm 0#3 == 0xFF00000000000000#64) &&
    goes ((start.setMm 0#3 0x00058000FFFF7FFF#64).setMm 1#3 0x00057FFF00008000#64) [0x0F#8, 0x75#8, 0xC1#8]
      (fun t => t.mm 0#3 == 0xFFFF000000000000#64) &&
    goes ((start.setMm 0#3 0x00000005FFFFFFFF#64).setMm 1#3 0x0000000500000001#64) [0x0F#8, 0x76#8, 0xC1#8]
      (fun t => t.mm 0#3 == 0xFFFFFFFF00000000#64) &&
    goes ((start.setMm 0#3 0x7F80FF050100FF01#64).setMm 1#3 0x7E7FFE05000101FF#64) [0x0F#8, 0x64#8, 0xC1#8]
      (fun t => t.mm 0#3 == 0xFF00FF00FF0000FF#64) &&
    goes ((start.setMm 0#3 0x00058000FFFF7FFF#64).setMm 1#3 0x00057FFF00008000#64) [0x0F#8, 0x65#8, 0xC1#8]
      (fun t => t.mm 0#3 == 0x000000000000FFFF#64) &&
    goes ((start.setMm 0#3 0x00000005FFFFFFFF#64).setMm 1#3 0x0000000500000001#64) [0x0F#8, 0x66#8, 0xC1#8]
      (fun t => t.mm 0#3 == 0x0000000000000000#64) &&
    goes ((start.setMm 0#3 0x0F0F0F0FFFFF0000#64).setMm 1#3 0x00FF00FFF0F0F0F0#64) [0x0F#8, 0xDB#8, 0xC1#8]
      (fun t => t.mm 0#3 == 0x000F000FF0F00000#64) &&
    goes ((start.setMm 0#3 0x0F0F0F0FFFFF0000#64).setMm 1#3 0x00FF00FFF0F0F0F0#64) [0x0F#8, 0xDF#8, 0xC1#8]
      (fun t => t.mm 0#3 == 0x00F000F00000F0F0#64) &&
    goes ((start.setMm 0#3 0x0F0F0F0FFFFF0000#64).setMm 1#3 0x00FF00FFF0F0F0F0#64) [0x0F#8, 0xEB#8, 0xC1#8]
      (fun t => t.mm 0#3 == 0x0FFF0FFFFFFFF0F0#64) &&
    goes ((start.setMm 0#3 0x0F0F0F0FFFFF0000#64).setMm 1#3 0x00FF00FFF0F0F0F0#64) [0x0F#8, 0xEF#8, 0xC1#8]
      (fun t => t.mm 0#3 == 0x0FF00FF00F0FF0F0#64)) = true := by decide

/-- Ten of V39 to V58. -/
theorem test_shift_by_operand : (
    goes ((start.setMm 0#3 0x80017FFFFFFF0001#64).setMm 1#3 0x0000000000000001#64) [0x0F#8, 0xF1#8, 0xC1#8]
      (fun t => t.mm 0#3 == 0x0002FFFEFFFE0002#64) &&
    goes ((start.setMm 0#3 0x80017FFFFFFF0001#64).setMm 1#3 0x0000000100000000#64) [0x0F#8, 0xF1#8, 0xC1#8]
      (fun t => t.mm 0#3 == 0x0000000000000000#64) &&
    goes ((start.setMm 0#3 0x800000017FFFFFFF#64).setMm 1#3 0x0000000000000004#64) [0x0F#8, 0xF2#8, 0xC1#8]
      (fun t => t.mm 0#3 == 0x00000010FFFFFFF0#64) &&
    goes ((start.setMm 0#3 0x8000000000000001#64).setMm 1#3 0x0000000000000040#64) [0x0F#8, 0xF3#8, 0xC1#8]
      (fun t => t.mm 0#3 == 0x0000000000000000#64) &&
    goes ((start.setMm 0#3 0x80017FFFFFFF0001#64).setMm 1#3 0x0000000000000001#64) [0x0F#8, 0xD1#8, 0xC1#8]
      (fun t => t.mm 0#3 == 0x40003FFF7FFF0000#64) &&
    goes ((start.setMm 0#3 0x800000017FFFFFFF#64).setMm 1#3 0x0000000000000004#64) [0x0F#8, 0xD2#8, 0xC1#8]
      (fun t => t.mm 0#3 == 0x0800000007FFFFFF#64) &&
    goes ((start.setMm 0#3 0x8000000000000001#64).setMm 1#3 0x0000000000000001#64) [0x0F#8, 0xD3#8, 0xC1#8]
      (fun t => t.mm 0#3 == 0x4000000000000000#64) &&
    goes ((start.setMm 0#3 0x80017FFFFFFF0001#64).setMm 1#3 0x0000000000000001#64) [0x0F#8, 0xE1#8, 0xC1#8]
      (fun t => t.mm 0#3 == 0xC0003FFFFFFF0000#64) &&
    goes ((start.setMm 0#3 0x80017FFFFFFF0001#64).setMm 1#3 0x00000000000000C8#64) [0x0F#8, 0xE1#8, 0xC1#8]
      (fun t => t.mm 0#3 == 0xFFFF0000FFFF0000#64) &&
    goes ((start.setMm 0#3 0x800000017FFFFFFF#64).setMm 1#3 0x0000000000000028#64) [0x0F#8, 0xE2#8, 0xC1#8]
      (fun t => t.mm 0#3 == 0xFFFFFFFF00000000#64)) = true := by decide

/-- V59 to V67. -/
theorem test_shift_by_immediate : (
    goes (start.setMm 0#3 0x80017FFFFFFF0001#64) [0x0F#8, 0x71#8, 0xF0#8, 0x04#8] (fun t => t.mm 0#3 == 0x0010FFF0FFF00010#64) &&
    goes (start.setMm 1#3 0x800000017FFFFFFF#64) [0x0F#8, 0x72#8, 0xF1#8, 0x04#8] (fun t => t.mm 1#3 == 0x00000010FFFFFFF0#64) &&
    goes (start.setMm 2#3 0x1122334455667788#64) [0x0F#8, 0x73#8, 0xF2#8, 0x20#8] (fun t => t.mm 2#3 == 0x5566778800000000#64) &&
    goes (start.setMm 0#3 0x80017FFFFFFF0001#64) [0x0F#8, 0x71#8, 0xD0#8, 0x08#8] (fun t => t.mm 0#3 == 0x0080007F00FF0000#64) &&
    goes (start.setMm 3#3 0x800000017FFFFFFF#64) [0x0F#8, 0x72#8, 0xD3#8, 0x10#8] (fun t => t.mm 3#3 == 0x0000800000007FFF#64) &&
    goes (start.setMm 0#3 0x1122334455667788#64) [0x0F#8, 0x73#8, 0xD0#8, 0x20#8] (fun t => t.mm 0#3 == 0x0000000011223344#64) &&
    goes (start.setMm 0#3 0x80017FFFFFFF0001#64) [0x0F#8, 0x71#8, 0xE0#8, 0x0F#8] (fun t => t.mm 0#3 == 0xFFFF0000FFFF0000#64) &&
    goes (start.setMm 1#3 0x800000017FFFFFFF#64) [0x0F#8, 0x72#8, 0xE1#8, 0x1F#8] (fun t => t.mm 1#3 == 0xFFFFFFFF00000000#64) &&
    goes (start.setMm 0#3 0x80017FFFFFFF0001#64) [0x0F#8, 0x71#8, 0xF0#8, 0xFF#8]
      (fun t => t.mm 0#3 == 0x0000000000000000#64)) = true := by decide

/-- V68 to V76. -/
theorem test_pack_and_unpack : (
    goes ((start.setMm 0#3 0x00007FFFFFFF8000#64).setMm 1#3 0x00008000FFFF7FFF#64) [0x0F#8, 0x6B#8, 0xC1#8]
      (fun t => t.mm 0#3 == 0x7FFF80007FFF8000#64) &&
    goes ((start.setMm 0#3 0x007F0080FF80FF7F#64).setMm 1#3 0x0100FFFF80007FFF#64) [0x0F#8, 0x63#8, 0xC1#8]
      (fun t => t.mm 0#3 == 0x7FFF807F7F7F8080#64) &&
    goes ((start.setMm 0#3 0x007F0080FF80FF7F#64).setMm 1#3 0x0100FFFF80007FFF#64) [0x0F#8, 0x67#8, 0xC1#8]
      (fun t => t.mm 0#3 == 0xFF0000FF7F800000#64) &&
    goes ((start.setMm 0#3 0x0706050403020100#64).setMm 1#3 0x1716151413121110#64) [0x0F#8, 0x68#8, 0xC1#8]
      (fun t => t.mm 0#3 == 0x1707160615051404#64) &&
    goes ((start.setMm 0#3 0x0706050403020100#64).setMm 1#3 0x1716151413121110#64) [0x0F#8, 0x69#8, 0xC1#8]
      (fun t => t.mm 0#3 == 0x1716070615140504#64) &&
    goes ((start.setMm 0#3 0x0706050403020100#64).setMm 1#3 0x1716151413121110#64) [0x0F#8, 0x6A#8, 0xC1#8]
      (fun t => t.mm 0#3 == 0x1716151407060504#64) &&
    goes ((start.setMm 0#3 0x0706050403020100#64).setMm 1#3 0x1716151413121110#64) [0x0F#8, 0x60#8, 0xC1#8]
      (fun t => t.mm 0#3 == 0x1303120211011000#64) &&
    goes ((start.setMm 0#3 0x0706050403020100#64).setMm 1#3 0x1716151413121110#64) [0x0F#8, 0x61#8, 0xC1#8]
      (fun t => t.mm 0#3 == 0x1312030211100100#64) &&
    goes ((start.setMm 0#3 0x0706050403020100#64).setMm 1#3 0x1716151413121110#64) [0x0F#8, 0x62#8, 0xC1#8]
      (fun t => t.mm 0#3 == 0x1312111003020100#64)) = true := by decide

/-- Thirteen of V78 to V96. -/
theorem test_pentium_iii_integer : (
    goes ((start.setMm 0#3 0x00FF0001FE807F01#64).setMm 1#3 0x00FF0002FF810102#64) [0x0F#8, 0xE0#8, 0xC1#8]
      (fun t => t.mm 0#3 == 0x00FF0002FF814002#64) &&
    goes ((start.setMm 0#3 0x00FF0001FE807F01#64).setMm 1#3 0x00FF0002FF810102#64) [0x0F#8, 0xE3#8, 0xC1#8]
      (fun t => t.mm 0#3 == 0x00FF0002FF014002#64) &&
    goes ((start.setMm 0#3 0x00FF0001FE807F01#64).setMm 1#3 0x00FF0002FF810102#64) [0x0F#8, 0xDE#8, 0xC1#8]
      (fun t => t.mm 0#3 == 0x00FF0002FF817F02#64) &&
    goes ((start.setMm 0#3 0x00FF0001FE807F01#64).setMm 1#3 0x00FF0002FF810102#64) [0x0F#8, 0xEE#8, 0xC1#8]
      (fun t => t.mm 0#3 == 0x00FF0002FF817F01#64) &&
    goes ((start.setMm 0#3 0x00FF0001FE807F01#64).setMm 1#3 0x00FF0002FF810102#64) [0x0F#8, 0xDA#8, 0xC1#8]
      (fun t => t.mm 0#3 == 0x00FF0001FE800101#64) &&
    goes ((start.setMm 0#3 0x00FF0001FE807F01#64).setMm 1#3 0x00FF0002FF810102#64) [0x0F#8, 0xEA#8, 0xC1#8]
      (fun t => t.mm 0#3 == 0x00FF0001FE800102#64) &&
    goes ((start.setMm 0#3 0xFFFF800000027FFB#64).setMm 1#3 0xFFFF800080007FFE#64) [0x0F#8, 0xE4#8, 0xC1#8]
      (fun t => t.mm 0#3 == 0xFFFE400000013FFC#64) &&
    goes ((start.setMm 0#3 0x00FF0001FE807F01#64).setMm 1#3 0x00FF0002FF810102#64) [0x0F#8, 0xF6#8, 0xC1#8]
      (fun t => t.mm 0#3 == 0x0000000000000082#64) &&
    goes (start.setMm 1#3 0x0012950B00540FD5#64) [0x0F#8, 0x70#8, 0xC1#8, 0x6D#8] (fun t => t.mm 0#3 == 0x0054950B00120054#64) &&
    goes (start.setMm 1#3 0x0012950B00540FD5#64) [0x0F#8, 0xC5#8, 0xC1#8, 0xFE#8] (fun t => t.x 0#3 == 0x0000950B#32) &&
    goes ((start.setX 3#3 0xDEADBEEF#32).setMm 0#3 0x1111222233334444#64) [0x0F#8, 0xC4#8, 0xC3#8, 0x03#8]
      (fun t => t.mm 0#3 == 0xBEEF222233334444#64) &&
    goes (State.put ((start.setX 3#3 0x00002000#32).setMm 0#3 0x1111222233334444#64) 0x2000#32 [0xCD#8, 0xAB#8])
      [0x0F#8, 0xC4#8, 0x03#8, 0x00#8]
      (fun t => t.mm 0#3 == 0x111122223333ABCD#64) &&
    goes (start.setMm 2#3 0x80007FFF01F08100#64) [0x0F#8, 0xD7#8, 0xC2#8] (fun t => t.x 0#3 == 0x00000096#32)) = true := by decide

/-- V97 to V115, those that complete. -/
theorem test_xmm_moves : (
    goes ((start.setXm 1#3 0xAAAAAAAABBBBBBBBCCCCCCCCDDDDDDDD#128).setXm 2#3 0x33333333222222221111111100000000#128)
      [0x0F#8, 0x28#8, 0xCA#8]
      (fun t => t.xm 1#3 == 0x33333333222222221111111100000000#128) &&
    goes (State.put start 0x1000#32 [0x00#8, 0x01#8, 0x02#8, 0x03#8, 0x04#8, 0x05#8, 0x06#8, 0x07#8, 0x08#8, 0x09#8, 0x0A#8, 0x0B#8, 0x0C#8, 0x0D#8, 0x0E#8, 0x0F#8])
      [0x0F#8, 0x28#8, 0x05#8, 0x00#8, 0x10#8, 0x00#8, 0x00#8]
      (fun t => t.xm 0#3 == 0x0F0E0D0C0B0A09080706050403020100#128) &&
    goes ((start.setX 3#3 0x00002000#32).setXm 1#3 0xAAAAAAAABBBBBBBBCCCCCCCCDDDDDDDD#128) [0x0F#8, 0x29#8, 0x0B#8]
      (fun t => t.mem.readBytes 0x2000#32 16 == [0xDD#8, 0xDD#8, 0xDD#8, 0xDD#8, 0xCC#8, 0xCC#8, 0xCC#8, 0xCC#8, 0xBB#8, 0xBB#8, 0xBB#8, 0xBB#8, 0xAA#8, 0xAA#8, 0xAA#8, 0xAA#8]) &&
    goes ((start.setXm 1#3 0xAAAAAAAABBBBBBBBCCCCCCCCDDDDDDDD#128).setXm 2#3 0x33333333222222221111111100000000#128)
      [0x0F#8, 0x29#8, 0xCA#8]
      (fun t => t.xm 2#3 == 0xAAAAAAAABBBBBBBBCCCCCCCCDDDDDDDD#128) &&
    goes (State.put start 0x1001#32 [0x01#8, 0x02#8, 0x03#8, 0x04#8, 0x05#8, 0x06#8, 0x07#8, 0x08#8, 0x09#8, 0x0A#8, 0x0B#8, 0x0C#8, 0x0D#8, 0x0E#8, 0x0F#8, 0x10#8])
      [0x0F#8, 0x10#8, 0x05#8, 0x01#8, 0x10#8, 0x00#8, 0x00#8]
      (fun t => t.xm 0#3 == 0x100F0E0D0C0B0A090807060504030201#128) &&
    goes ((start.setX 3#3 0x00002003#32).setXm 0#3 0xAAAAAAAABBBBBBBBCCCCCCCCDDDDDDDD#128) [0x0F#8, 0x11#8, 0x03#8]
      (fun t => t.mem.readBytes 0x2003#32 16 == [0xDD#8, 0xDD#8, 0xDD#8, 0xDD#8, 0xCC#8, 0xCC#8, 0xCC#8, 0xCC#8, 0xBB#8, 0xBB#8, 0xBB#8, 0xBB#8, 0xAA#8, 0xAA#8, 0xAA#8, 0xAA#8]) &&
    goes (State.put ((start.setX 0#3 0x00003004#32).setXm 2#3 0x33333333222222221111111100000000#128) 0x3004#32 [0x88#8, 0x77#8, 0x66#8, 0x55#8, 0x44#8, 0x33#8, 0x22#8, 0x11#8])
      [0x0F#8, 0x16#8, 0x10#8]
      (fun t => t.xm 2#3 == 0x11223344556677881111111100000000#128) &&
    goes ((start.setX 0#3 0x00003004#32).setXm 2#3 0x33333333222222221111111100000000#128) [0x0F#8, 0x17#8, 0x10#8]
      (fun t => t.mem.readBytes 0x3004#32 8 == [0x22#8, 0x22#8, 0x22#8, 0x22#8, 0x33#8, 0x33#8, 0x33#8, 0x33#8]) &&
    goes (State.put ((start.setX 0#3 0x00003004#32).setXm 1#3 0xAAAAAAAABBBBBBBBCCCCCCCCDDDDDDDD#128) 0x3004#32 [0x88#8, 0x77#8, 0x66#8, 0x55#8, 0x44#8, 0x33#8, 0x22#8, 0x11#8])
      [0x0F#8, 0x12#8, 0x08#8]
      (fun t => t.xm 1#3 == 0xAAAAAAAABBBBBBBB1122334455667788#128) &&
    goes ((start.setX 0#3 0x00003004#32).setXm 1#3 0xAAAAAAAABBBBBBBBCCCCCCCCDDDDDDDD#128) [0x0F#8, 0x13#8, 0x08#8]
      (fun t => t.mem.readBytes 0x3004#32 8 == [0xDD#8, 0xDD#8, 0xDD#8, 0xDD#8, 0xCC#8, 0xCC#8, 0xCC#8, 0xCC#8]) &&
    goes ((start.setXm 1#3 0xAAAAAAAABBBBBBBBCCCCCCCCDDDDDDDD#128).setXm 2#3 0x33333333222222221111111100000000#128)
      [0x0F#8, 0x12#8, 0xCA#8]
      (fun t => t.xm 1#3 == 0xAAAAAAAABBBBBBBB3333333322222222#128) &&
    goes ((start.setXm 1#3 0xAAAAAAAABBBBBBBBCCCCCCCCDDDDDDDD#128).setXm 2#3 0x33333333222222221111111100000000#128)
      [0x0F#8, 0x16#8, 0xCA#8]
      (fun t => t.xm 1#3 == 0x1111111100000000CCCCCCCCDDDDDDDD#128) &&
    goes ((start.setX 0#3 0xFFFFFFFF#32).setXm 3#3 0xBF8000003F800000800000007FC00000#128) [0x0F#8, 0x50#8, 0xC3#8]
      (fun t => t.x 0#3 == 0x0000000A#32) &&
    goes (State.put ((start.setX 3#3 0x00002001#32).setXm 0#3 0xFFFFFFFFFFFFFFFFFFFFFFFFFFFFFFFF#128) 0x2001#32 [0x00#8, 0x00#8, 0x80#8, 0x3F#8])
      [0xF3#8, 0x0F#8, 0x10#8, 0x03#8]
      (fun t => t.xm 0#3 == 0x0000000000000000000000003F800000#128) &&
    goes ((start.setXm 0#3 0xFFFFFFFFFFFFFFFFFFFFFFFFFFFFFFFF#128).setXm 1#3 0xAAAAAAAABBBBBBBBCCCCCCCC40000000#128)
      [0xF3#8, 0x0F#8, 0x10#8, 0xC1#8]
      (fun t => t.xm 0#3 == 0xFFFFFFFFFFFFFFFFFFFFFFFF40000000#128) &&
    goes ((start.setX 3#3 0x00002001#32).setXm 1#3 0xAAAAAAAABBBBBBBBCCCCCCCCDDDDDDDD#128) [0xF3#8, 0x0F#8, 0x11#8, 0x0B#8]
      (fun t => t.mem.readBytes 0x2001#32 4 == [0xDD#8, 0xDD#8, 0xDD#8, 0xDD#8]) &&
    goes ((start.setXm 0#3 0xFFFFFFFFFFFFFFFFFFFFFFFFFFFFFFFF#128).setXm 1#3 0xAAAAAAAABBBBBBBBCCCCCCCCDDDDDDDD#128)
      [0xF3#8, 0x0F#8, 0x11#8, 0xC8#8]
      (fun t => t.xm 0#3 == 0xFFFFFFFFFFFFFFFFFFFFFFFFDDDDDDDD#128)) = true := by decide

/-- Ten of V117 to V129. -/
theorem test_xmm_arithmetic : (
    goes ((start.setXm 0#3 0x40400000400000003F80000000000000#128).setXm 1#3 0x3F8000003F8000003F8000003F800000#128)
      [0x0F#8, 0x58#8, 0xC1#8]
      (fun t => t.xm 0#3 == 0x4080000040400000400000003F800000#128 && t.mxcsr == 0x00001F80#32) &&
    goes ((start.setXm 0#3 0xAAAAAAAABBBBBBBBCCCCCCCC3DCCCCCD#128).setXm 1#3 0x0000000000000000000000003E4CCCCD#128)
      [0xF3#8, 0x0F#8, 0x58#8, 0xC1#8]
      (fun t => t.xm 0#3 == 0xAAAAAAAABBBBBBBBCCCCCCCC3E99999A#128 && t.mxcsr == 0x00001FA0#32) &&
    goes { ((start.setXm 0#3 0x0000000000000000000000004B800000#128).setXm 1#3 0x0000000000000000000000003F800000#128) with mxcsr := 0x00005F80#32 }
      [0xF3#8, 0x0F#8, 0x58#8, 0xC1#8]
      (fun t => elem 32 (t.xm 0#3) 0 == 0x4B800001#32 && t.mxcsr == 0x00005FA0#32) &&
    goes ((start.setXm 0#3 0x3F8000003F8000003F8000003F800000#128).setXm 1#3 0x40400000400000003F80000000000000#128)
      [0x0F#8, 0x5C#8, 0xC1#8]
      (fun t => t.xm 0#3 == 0xC0000000BF800000000000003F800000#128 && t.mxcsr == 0x00001F80#32) &&
    goes ((start.setXm 0#3 0x0000000000000000000000007F800000#128).setXm 1#3 0x0000000000000000000000007F800000#128)
      [0xF3#8, 0x0F#8, 0x5C#8, 0xC1#8]
      (fun t => elem 32 (t.xm 0#3) 0 == 0xFFC00000#32 && t.mxcsr == 0x00001F81#32) &&
    goes ((start.setXm 0#3 0x7F7FFFFF008000003FC0000040000000#128).setXm 1#3 0x400000003F000000C000000040400000#128)
      [0x0F#8, 0x59#8, 0xC1#8]
      (fun t => t.xm 0#3 == 0x7F80000000400000C040000040C00000#128 && t.mxcsr == 0x00001FA8#32) &&
    goes { ((start.setXm 0#3 0x7F7FFFFF008000003FC0000040000000#128).setXm 1#3 0x400000003F000000C000000040400000#128) with mxcsr := 0x00009F80#32 }
      [0x0F#8, 0x59#8, 0xC1#8]
      (fun t => t.xm 0#3 == 0x7F80000000000000C040000040C00000#128 && t.mxcsr == 0x00009FB8#32) &&
    goes ((start.setXm 0#3 0x00000000000000000000000000800000#128).setXm 1#3 0x00000000000000000000000000800000#128)
      [0xF3#8, 0x0F#8, 0x59#8, 0xC1#8]
      (fun t => elem 32 (t.xm 0#3) 0 == 0x00000000#32 && t.mxcsr == 0x00001FB0#32) &&
    goes { ((start.setXm 0#3 0x00000000000000000000000000800000#128).setXm 1#3 0x00000000000000000000000000800000#128) with mxcsr := 0x00005F80#32 }
      [0xF3#8, 0x0F#8, 0x59#8, 0xC1#8]
      (fun t => elem 32 (t.xm 0#3) 0 == 0x00000001#32 && t.mxcsr == 0x00005FB0#32) &&
    goes ((start.setXm 0#3 0x00000000000000000000000000000001#128).setXm 1#3 0x00000000000000000000000040000000#128)
      [0xF3#8, 0x0F#8, 0x59#8, 0xC1#8]
      (fun t => elem 32 (t.xm 0#3) 0 == 0x00000002#32 && t.mxcsr == 0x00001F82#32)) = true := by decide

/-- V130 to V139, V142, V143. -/
theorem test_xmm_divide_sqrt_extremes : (
    goes ((start.setXm 0#3 0x3F800000000000003F80000041200000#128).setXm 1#3 0x40400000000000000000000040800000#128)
      [0x0F#8, 0x5E#8, 0xC1#8]
      (fun t => t.xm 0#3 == 0x3EAAAAABFFC000007F80000040200000#128 && t.mxcsr == 0x00001FA5#32) &&
    goes ((start.setXm 0#3 0x000000000000000000000000BF800000#128).setXm 1#3 0x00000000000000000000000000000000#128)
      [0xF3#8, 0x0F#8, 0x5E#8, 0xC1#8]
      (fun t => elem 32 (t.xm 0#3) 0 == 0xFF800000#32 && t.mxcsr == 0x00001F84#32) &&
    goes (start.setXm 1#3 0xBF800000800000004000000041100000#128) [0x0F#8, 0x51#8, 0xC1#8]
      (fun t => t.xm 0#3 == 0xFFC00000800000003FB504F340400000#128 && t.mxcsr == 0x00001FA1#32) &&
    goes ((start.setXm 0#3 0xAAAAAAAABBBBBBBBCCCCCCCCDDDDDDDD#128).setXm 1#3 0x0000000000000000000000003E800000#128)
      [0xF3#8, 0x0F#8, 0x51#8, 0xC1#8]
      (fun t => t.xm 0#3 == 0xAAAAAAAABBBBBBBBCCCCCCCC3F000000#128 && t.mxcsr == 0x00001F80#32) &&
    goes ((start.setXm 0#3 0x7FC00000800000003F800000C0000000#128).setXm 1#3 0x3F8000000000000040000000C0400000#128)
      [0x0F#8, 0x5F#8, 0xC1#8]
      (fun t => t.xm 0#3 == 0x3F8000000000000040000000C0000000#128 && t.mxcsr == 0x00001F81#32) &&
    goes ((start.setXm 0#3 0x7FC00000800000003F800000C0000000#128).setXm 1#3 0x3F8000000000000040000000C0400000#128)
      [0x0F#8, 0x5D#8, 0xC1#8]
      (fun t => t.xm 0#3 == 0x3F800000000000003F800000C0400000#128 && t.mxcsr == 0x00001F81#32) &&
    goes ((start.setXm 0#3 0xAAAAAAAABBBBBBBBCCCCCCCC00000000#128).setXm 1#3 0x00000000000000000000000080000000#128)
      [0xF3#8, 0x0F#8, 0x5F#8, 0xC1#8]
      (fun t => t.xm 0#3 == 0xAAAAAAAABBBBBBBBCCCCCCCC80000000#128 && t.mxcsr == 0x00001F80#32) &&
    goes ((start.setXm 0#3 0x00000000000000000000000040A00000#128).setXm 1#3 0x000000000000000000000000C0E00000#128)
      [0xF3#8, 0x0F#8, 0x5D#8, 0xC1#8]
      (fun t => elem 32 (t.xm 0#3) 0 == 0xC0E00000#32) &&
    goes (start.setXm 1#3 0x00000000800000007F800000FF800000#128) [0x0F#8, 0x53#8, 0xC1#8]
      (fun t => t.xm 0#3 == 0x7F800000FF8000000000000080000000#128 && t.mxcsr == 0x00001F80#32) &&
    goes (start.setXm 1#3 0x00000000800000007F800000BF800000#128) [0x0F#8, 0x52#8, 0xC1#8]
      (fun t => t.xm 0#3 == 0x7F800000FF80000000000000FFC00000#128 && t.mxcsr == 0x00001F80#32) &&
    goes ((start.setXm 0#3 0x0000000000000000000000007FA00000#128).setXm 1#3 0x0000000000000000000000007FC00001#128)
      [0xF3#8, 0x0F#8, 0x58#8, 0xC1#8]
      (fun t => elem 32 (t.xm 0#3) 0 == 0x7FE00000#32 && t.mxcsr == 0x00001F81#32) &&
    goes ((start.setXm 0#3 0x0000000000000000000000003F800000#128).setXm 1#3 0x0000000000000000000000007FC00001#128)
      [0xF3#8, 0x0F#8, 0x58#8, 0xC1#8]
      (fun t => elem 32 (t.xm 0#3) 0 == 0x7FC00001#32 && t.mxcsr == 0x00001F80#32)) = true := by decide +kernel

/-- V144 to V148. -/
theorem test_xmm_predicates : (
    goes ((start.setXm 0#3 0x7FC00000400000003F80000000000000#128).setXm 1#3 0x3F8000003F8000003F80000080000000#128)
      [0x0F#8, 0xC2#8, 0xC1#8, 0x01#8]
      (fun t => t.xm 0#3 == 0x00000000000000000000000000000000#128 && t.mxcsr == 0x00001F81#32) &&
    goes ((start.setXm 0#3 0x7FC00000400000003F80000000000000#128).setXm 1#3 0x3F8000003F8000003F80000080000000#128)
      [0x0F#8, 0xC2#8, 0xC1#8, 0x00#8]
      (fun t => t.xm 0#3 == 0x0000000000000000FFFFFFFFFFFFFFFF#128 && t.mxcsr == 0x00001F80#32) &&
    goes ((start.setXm 0#3 0x7FC00000400000003F80000000000000#128).setXm 1#3 0x3F8000003F8000003F80000080000000#128)
      [0x0F#8, 0xC2#8, 0xC1#8, 0x05#8]
      (fun t => t.xm 0#3 == 0xFFFFFFFFFFFFFFFFFFFFFFFFFFFFFFFF#128 && t.mxcsr == 0x00001F81#32) &&
    goes ((start.setXm 0#3 0x7FC00000400000003F80000000000000#128).setXm 1#3 0x3F8000003F8000003F80000080000000#128)
      [0x0F#8, 0xC2#8, 0xC1#8, 0x03#8]
      (fun t => t.xm 0#3 == 0xFFFFFFFF000000000000000000000000#128 && t.mxcsr == 0x00001F80#32) &&
    goes ((start.setXm 0#3 0xAAAAAAAABBBBBBBBCCCCCCCC3F800000#128).setXm 1#3 0x00000000000000000000000040000000#128)
      [0xF3#8, 0x0F#8, 0xC2#8, 0xC1#8, 0x02#8]
      (fun t => t.xm 0#3 == 0xAAAAAAAABBBBBBBBCCCCCCCCFFFFFFFF#128)) = true := by decide

/-- Fourteen of V155 to V171. -/
theorem test_conversions : (
    goes ((start.setXm 1#3 0xAAAAAAAABBBBBBBBCCCCCCCCDDDDDDDD#128).setMm 0#3 0xFFFFFFFF01000001#64) [0x0F#8, 0x2A#8, 0xC8#8]
      (fun t => t.xm 1#3 == 0xAAAAAAAABBBBBBBBBF8000004B800000#128 && t.mxcsr == 0x00001FA0#32) &&
    goes (State.put ((start.setX 0#3 0x00003004#32).setXm 1#3 0xAAAAAAAABBBBBBBBCCCCCCCCDDDDDDDD#128) 0x3004#32 [0x02#8, 0x00#8, 0x00#8, 0x00#8, 0xFE#8, 0xFF#8, 0xFF#8, 0xFF#8])
      [0x0F#8, 0x2A#8, 0x08#8]
      (fun t => t.xm 1#3 == 0xAAAAAAAABBBBBBBBC000000040000000#128 && t.mxcsr == 0x00001F80#32) &&
    goes (start.setXm 2#3 0x0000000000000000C020000040200000#128) [0x0F#8, 0x2D#8, 0xC2#8]
      (fun t => t.mm 0#3 == 0xFFFFFFFE00000002#64 && t.mxcsr == 0x00001FA0#32) &&
    goes { (start.setXm 2#3 0x0000000000000000C020000040200000#128) with mxcsr := 0x00003F80#32 } [0x0F#8, 0x2D#8, 0xC2#8]
      (fun t => t.mm 0#3 == 0xFFFFFFFD00000002#64 && t.mxcsr == 0x00003FA0#32) &&
    goes { (start.setXm 2#3 0x0000000000000000C020000040200000#128) with mxcsr := 0x00005F80#32 } [0x0F#8, 0x2D#8, 0xC2#8]
      (fun t => t.mm 0#3 == 0xFFFFFFFE00000003#64 && t.mxcsr == 0x00005FA0#32) &&
    goes { (start.setXm 2#3 0x0000000000000000C020000040200000#128) with mxcsr := 0x00005F80#32 } [0x0F#8, 0x2C#8, 0xC2#8]
      (fun t => t.mm 0#3 == 0xFFFFFFFE00000002#64 && t.mxcsr == 0x00005FA0#32) &&
    goes (start.setXm 2#3 0x00000000000000004F0000007FC00000#128) [0x0F#8, 0x2C#8, 0xC2#8]
      (fun t => t.mm 0#3 == 0x8000000080000000#64 && t.mxcsr == 0x00001F81#32) &&
    goes ((start.setX 0#3 0x02000003#32).setXm 0#3 0xAAAAAAAABBBBBBBBCCCCCCCCDDDDDDDD#128) [0xF3#8, 0x0F#8, 0x2A#8, 0xC0#8]
      (fun t => t.xm 0#3 == 0xAAAAAAAABBBBBBBBCCCCCCCC4C000001#128 && t.mxcsr == 0x00001FA0#32) &&
    goes (start.setX 0#3 0x7FFFFFFF#32) [0xF3#8, 0x0F#8, 0x2A#8, 0xC0#8]
      (fun t => elem 32 (t.xm 0#3) 0 == 0x4F000000#32 && t.mxcsr == 0x00001FA0#32) &&
    goes { (start.setX 0#3 0x7FFFFFFF#32) with mxcsr := 0x00007F80#32 } [0xF3#8, 0x0F#8, 0x2A#8, 0xC0#8]
      (fun t => elem 32 (t.xm 0#3) 0 == 0x4EFFFFFF#32 && t.mxcsr == 0x00007FA0#32) &&
    goes (start.setXm 1#3 0x00000000000000000000000040600000#128) [0xF3#8, 0x0F#8, 0x2D#8, 0xC1#8]
      (fun t => t.x 0#3 == 0x00000004#32 && t.mxcsr == 0x00001FA0#32) &&
    goes (start.setXm 1#3 0x0000000000000000000000004F000000#128) [0xF3#8, 0x0F#8, 0x2D#8, 0xC1#8]
      (fun t => t.x 0#3 == 0x80000000#32 && t.mxcsr == 0x00001F81#32) &&
    goes (start.setXm 1#3 0x000000000000000000000000CF000000#128) [0xF3#8, 0x0F#8, 0x2D#8, 0xC1#8]
      (fun t => t.x 0#3 == 0x80000000#32 && t.mxcsr == 0x00001F80#32) &&
    goes (start.setXm 1#3 0x000000000000000000000000C0200000#128) [0xF3#8, 0x0F#8, 0x2C#8, 0xC1#8]
      (fun t => t.x 0#3 == 0xFFFFFFFE#32)) = true := by decide

/-- Twelve of V172 to V196. -/
theorem test_xmm_logic_and_state : (
    goes ((start.setXm 0#3 0xBF800000C00000003F80000080000000#128).setXm 1#3 0x7FFFFFFF7FFFFFFF7FFFFFFF7FFFFFFF#128)
      [0x0F#8, 0x54#8, 0xC1#8]
      (fun t => t.xm 0#3 == 0x3F800000400000003F80000000000000#128) &&
    goes ((start.setXm 0#3 0x80000000800000008000000080000000#128).setXm 1#3 0xBF800000C00000003F80000080000000#128)
      [0x0F#8, 0x55#8, 0xC1#8]
      (fun t => t.xm 0#3 == 0x3F800000400000003F80000000000000#128) &&
    goes ((start.setXm 0#3 0x3F800000400000003F80000000000000#128).setXm 1#3 0x80000000800000008000000080000000#128)
      [0x0F#8, 0x56#8, 0xC1#8]
      (fun t => t.xm 0#3 == 0xBF800000C0000000BF80000080000000#128) &&
    goes ((start.setXm 0#3 0xBF800000C00000003F8000007FA00000#128).setXm 1#3 0x80000000800000008000000080000000#128)
      [0x0F#8, 0x57#8, 0xC1#8]
      (fun t => t.xm 0#3 == 0x3F80000040000000BF800000FFA00000#128 && t.mxcsr == 0x00001F80#32) &&
    goes (start.setXm 0#3 0xAAAAAAAABBBBBBBBCCCCCCCCDDDDDDDD#128) [0x0F#8, 0x57#8, 0xC0#8]
      (fun t => t.xm 0#3 == 0x00000000000000000000000000000000#128) &&
    goes (State.put (start.setX 0#3 0x00003004#32) 0x3004#32 [0x80#8, 0x7F#8, 0x00#8, 0x00#8]) [0x0F#8, 0xAE#8, 0x10#8]
      (fun t => t.mxcsr == 0x00007F80#32) &&
    goes (State.put (start.setX 0#3 0x00003004#32) 0x3004#32 [0xBF#8, 0x1F#8, 0x00#8, 0x00#8]) [0x0F#8, 0xAE#8, 0x10#8]
      (fun t => t.mxcsr == 0x00001FBF#32) &&
    goes { (start.setX 0#3 0x00003004#32) with mxcsr := 0x00001FA0#32 } [0x0F#8, 0xAE#8, 0x18#8]
      (fun t => t.mem.readBytes 0x3004#32 4 == [0xA0#8, 0x1F#8, 0x00#8, 0x00#8]) &&
    goes (start.setXm 0#3 0xAAAAAAAABBBBBBBBCCCCCCCCDDDDDDDD#128) [0x0F#8, 0xC6#8, 0xC0#8, 0x00#8]
      (fun t => t.xm 0#3 == 0xDDDDDDDDDDDDDDDDDDDDDDDDDDDDDDDD#128) &&
    goes ((start.setXm 0#3 0xAAAAAAAABBBBBBBBCCCCCCCCDDDDDDDD#128).setXm 1#3 0x33333333222222221111111100000000#128)
      [0x0F#8, 0xC6#8, 0xC1#8, 0x4E#8]
      (fun t => t.xm 0#3 == 0x1111111100000000AAAAAAAABBBBBBBB#128) &&
    goes ((start.setX 3#3 0x00002004#32).setMm 1#3 0x0102030405060708#64) [0x0F#8, 0xE7#8, 0x0B#8]
      (fun t => t.mem.readBytes 0x2004#32 8 == [0x08#8, 0x07#8, 0x06#8, 0x05#8, 0x04#8, 0x03#8, 0x02#8, 0x01#8]) &&
    goes ((start.setX 3#3 0x00002000#32).setXm 1#3 0xAAAAAAAABBBBBBBBCCCCCCCCDDDDDDDD#128) [0x0F#8, 0x2B#8, 0x0B#8]
      (fun t => t.mem.readBytes 0x2000#32 16 == [0xDD#8, 0xDD#8, 0xDD#8, 0xDD#8, 0xCC#8, 0xCC#8, 0xCC#8, 0xCC#8, 0xBB#8, 0xBB#8, 0xBB#8, 0xBB#8, 0xAA#8, 0xAA#8, 0xAA#8, 0xAA#8])) = true := by decide

/-- V150 to V154: EFLAGS after COMISS and UCOMISS; the bits before are all 1 in the first. -/
theorem test_comiss : (
    goes ((({ start with eflags := 0x8D7#32 }).setXm 0#3 0x3F800000#128).setXm 1#3 0x40000000#128) [0x0F#8, 0x2F#8, 0xC1#8]
      (fun t => t.eflags == 3#32) &&
    goes ((start.setXm 0#3 0x40000000#128).setXm 1#3 0x40000000#128) [0x0F#8, 0x2F#8, 0xC1#8] (fun t => t.eflags == 0x42#32) &&
    goes ((start.setXm 0#3 0x7FC00000#128).setXm 1#3 0x3F800000#128) [0x0F#8, 0x2F#8, 0xC1#8]
      (fun t => t.eflags == 0x47#32 && t.mxcsr == 0x1F81#32) &&
    goes ((start.setXm 0#3 0x7FC00000#128).setXm 1#3 0x3F800000#128) [0x0F#8, 0x2E#8, 0xC1#8]
      (fun t => t.eflags == 0x47#32 && t.mxcsr == 0x1F80#32) &&
    goes ((start.setXm 0#3 0x7FA00000#128).setXm 1#3 0x3F800000#128) [0x0F#8, 0x2E#8, 0xC1#8]
      (fun t => t.eflags == 0x47#32 && t.mxcsr == 0x1F81#32)) = true := by decide

/-- A QNaN beside a denormal: UCOMISS signals nothing, COMISS IE (47 R305, R306). -/
theorem test_ucomiss_qnan_beside_denormal : (
    goes ((start.setXm 0#3 0x7FC00000#128).setXm 1#3 1#128) [0x0F#8, 0x2E#8, 0xC1#8]
      (fun t => t.eflags == 0x47#32 && t.mxcsr == 0x1F80#32) &&
    goes ((start.setXm 0#3 1#128).setXm 1#3 0x7FC00000#128) [0x0F#8, 0x2F#8, 0xC1#8]
      (fun t => t.eflags == 0x47#32 && t.mxcsr == 0x1F81#32)) = true := by decide

/-- V187, V191, V192 with A3..A0 = 3, 2, 1, 0 and B3..B0 = 7, 6, 5, 4. -/
theorem test_shuffles : (
    goes ((start.setXm 0#3 0x00000003000000020000000100000000#128).setXm 1#3 0x00000007000000060000000500000004#128)
      [0x0F#8, 0xC6#8, 0xC1#8, 0x1B#8] (fun t => t.xm 0#3 == 0x00000004000000050000000200000003#128) &&
    goes ((start.setXm 0#3 0x00000003000000020000000100000000#128).setXm 1#3 0x00000007000000060000000500000004#128)
      [0x0F#8, 0x15#8, 0xC1#8] (fun t => t.xm 0#3 == 0x00000007000000030000000600000002#128) &&
    goes ((start.setXm 0#3 0x00000003000000020000000100000000#128).setXm 1#3 0x00000007000000060000000500000004#128)
      [0x0F#8, 0x14#8, 0xC1#8] (fun t => t.xm 0#3 == 0x00000005000000010000000400000000#128)) = true := by decide

/-- V193, V194: MASKMOVQ stores the selected bytes only, and an all-zero mask reaches no memory. -/
theorem test_maskmovq : (
    goes (((start.setMm 1#3 0x8877665544332211#64).setMm 2#3 0x8000FF00007F8001#64).setX 7#3 0x3000#32) [0x0F#8, 0xF7#8, 0xCA#8]
      (fun t => t.mem.readBytes 0x3000#32 8 == [0#8, 0x22#8, 0#8, 0#8, 0#8, 0x66#8, 0#8, 0x88#8] && t.twr == 0#16) &&
    goes (({ start with plat := { start.plat with regions := [⟨0, 0x100000, .absent⟩] } }).setMm 2#3 0x7F7F7F7F7F7F7F7F#64)
      [0x0F#8, 0xF7#8, 0xCA#8] (fun t => t.twr == 0#16)) = true := by decide

/-- EMMS (44 R236), the hints (V198, V200), WRMSR to the TSC (V204), CPUID leaf 0 (V212). -/
theorem test_emms_hints_system : (
    goes ({ start with twr := 0#16, swr := 0x3800#16 }) [0x0F#8, 0x77#8] (fun t => t.twr == 0xFFFF#16 && t.swr == 0#16) &&
    goes ({ start with cr0 := 8#32, plat := { start.plat with regions := [⟨0, 0x100000, .absent⟩] } }) [0x0F#8, 0x18#8, 0#8]
      (fun t => t.x 0#3 == 0#32) &&
    goes start [0x0F#8, 0xAE#8, 0xF8#8] (fun t => t.twr == start.twr) &&
    goes ((((startAt 0#2).setX 1#3 0x10#32).setX 2#3 0xFFFFFFFF#32).setX 0#3 0x100#32) [0x0F#8, 0x30#8]
      (fun t => t.tscLast == 0x100#64 && t.x 2#3 == 0xFFFFFFFF#32) &&
    goes start [0x0F#8, 0xA2#8] (fun t => t.x 3#3 == 0x756E6547#32 && t.x 2#3 == 0x49656E69#32 && t.x 1#3 == 0x6C65746E#32))
    = true := by decide

/-- V99, V180, V181, V185, V197, V203, V207, V208: #GP(0). -/
theorem test_general_protection : (
    raises start [0x0F#8, 0x28#8, 5#8, 8#8, 0x10#8, 0#8, 0#8] 0x1F80#32 .gp &&
    raises (State.put (start.setX 0#3 0x3004#32) 0x3004#32 [0#8, 0#8, 1#8, 0#8]) [0x0F#8, 0xAE#8, 0x10#8] 0x1F80#32 .gp &&
    raises (State.put (start.setX 0#3 0x3004#32) 0x3004#32 [0xC0#8, 0x1F#8, 0#8, 0#8]) [0x0F#8, 0xAE#8, 0x10#8] 0x1F80#32 .gp &&
    raises (start.setX 0#3 0x4008#32) [0x0F#8, 0xAE#8, 0#8] 0x1F80#32 .gp &&
    raises (start.setX 3#3 0x2004#32) [0x0F#8, 0x2B#8, 0x0B#8] 0x1F80#32 .gp &&
    raises { start with cr4 := 0x604#32 } [0x0F#8, 0x31#8] 0x1F80#32 .gp &&
    raises (start.setX 1#3 0x10#32) [0x0F#8, 0x32#8] 0x1F80#32 .gp &&
    raises ((startAt 0#2).setX 1#3 0x11#32) [0x0F#8, 0x32#8] 0x1F80#32 .gp) = true := by decide

/-- V213, V214 with the page from 2000h shut out, V215: #PF with the error code of 60_exceptions R380 (absent, user; a write in V214), and
#GP before it. -/
theorem test_page_fault : (
    raises ({ start with plat := { start.plat with regions := [⟨0x2000, 0x1000, .absent⟩] } }.setX 3#3 0x1FFC#32)
      [0x0F#8, 0x6F#8, 3#8] 0x1F80#32 (.pf 0x2000#32 4#32) &&
    raises ({ start with plat := { start.plat with regions := [⟨0x2000, 0x1000, .absent⟩] } }.setX 3#3 0x1FFC#32)
      [0x0F#8, 0x7F#8, 3#8] 0x1F80#32 (.pf 0x2000#32 6#32) &&
    raises ({ start with plat := { start.plat with regions := [⟨0x2000, 0x1000, .absent⟩] } }.setX 3#3 0x2008#32)
      [0x0F#8, 0x28#8, 3#8] 0x1F80#32 .gp) = true := by decide

/-- A write that is there but not allowed, at CPL 0: error code 3 (60_exceptions R380). -/
theorem test_page_fault_present :
    raises ({ startAt 0#2 with plat := { start.plat with regions := [⟨0x2000, 0x1000, .noWrite⟩] } }.setX 3#3 0x2000#32)
      [0x0F#8, 0x7F#8, 3#8] 0x1F80#32 (.pf 0x2000#32 3#32) = true := by decide

/-- V216, V217, V222 to V226: #UD and #NM. -/
theorem test_invalid_opcode_and_not_available : (
    raises start [0xF0#8, 0x0F#8, 0x7F#8, 3#8] 0x1F80#32 .ud && raises start [0x0F#8, 0x71#8, 0x30#8, 4#8] 0x1F80#32 .ud &&
    raises { start with plat := { start.plat with gen := .pentiumII } } [0x0F#8, 0x58#8, 0xC1#8] 0x1F80#32 .ud &&
    raises { start with plat := { start.plat with gen := .pentiumMMX } } [0x0F#8, 0xE0#8, 0xC1#8] 0x1F80#32 .ud &&
    raises { start with cr0 := 4#32 } [0x0F#8, 0xFC#8, 0xC1#8] 0x1F80#32 .ud &&
    raises { start with cr0 := 8#32 } [0x0F#8, 0xFC#8, 0xC1#8] 0x1F80#32 .nm &&
    raises { start with x87Pending := true } [0x0F#8, 0xFC#8, 0xC1#8] 0x1F80#32 .mf &&
    raises { start with cr4 := 0#32 } [0x0F#8, 0x58#8, 0xC1#8] 0x1F80#32 .ud) = true := by decide

/-- Longer than 15 bytes, also with LOCK, of an invalid form and of a reserved hint: #GP(0); but no instruction, or cut off by the end of the program, first
(30_encoding R104; 20_memory R92; 60_exceptions R393 step 1). -/
theorem test_length_limit : (
    raises start (List.replicate 14 0x26#8 ++ [0x0F#8, 0x77#8]) 0x1F80#32 .gp &&
    raises start (0xF0#8 :: List.replicate 13 0x26#8 ++ [0x0F#8, 0x77#8]) 0x1F80#32 .gp &&
    raises start (List.replicate 12 0x26#8 ++ [0x0F#8, 0x71#8, 0xC8#8, 4#8]) 0x1F80#32 .gp &&
    raises start (List.replicate 13 0x26#8 ++ [0x0F#8, 0x18#8, 0x20#8]) 0x1F80#32 .gp &&
    goes start (List.replicate 12 0x26#8 ++ [0x0F#8, 0x18#8, 0x20#8]) (fun t => t.twr == 0xFFFF#16) &&
    goes start (List.replicate 13 0x26#8 ++ [0x0F#8, 0x77#8]) (fun t => t.twr == 0xFFFF#16) &&
    refuses start (List.replicate 15 0x26#8 ++ [0x90#8]) .notInstruction &&
    refuses { start with plat := { start.plat with codeLen := 15 } } (List.replicate 14 0x26#8 ++ [0x0F#8, 0x77#8]) .fetchOutsideCode)
    = true := by decide

/-- A predicate above 7: #UD where the instruction is absent, #GP for a misaligned operand, then the refusal (47 R289; 46 R271). -/
theorem test_reserved_predicate : (
    raises { start with plat := { start.plat with gen := .pentiumII } } [0x0F#8, 0xC2#8, 0xC1#8, 8#8] 0x1F80#32 .ud &&
    raises (start.setX 3#3 0x2008#32) [0x0F#8, 0xC2#8, 3#8, 8#8] 0x1F80#32 .gp &&
    refuses start [0x0F#8, 0xC2#8, 0xC1#8, 8#8] (.reservedPredicate 8#8) &&
    refuses start [0xF3#8, 0x0F#8, 0xC2#8, 0xC1#8, 0xFF#8] (.reservedPredicate 0xFF#8)) = true := by decide

/-- V228 to V233: unmasked SIMD conditions set their flags and raise, with nothing written. -/
theorem test_simd_exceptions : (
    raises ({ start with mxcsr := 0x1D80#32 }.setXm 0#3 0xBF800000#128) [0xF3#8, 0x0F#8, 0x5E#8, 0xC1#8] 0x1D84#32 .xm &&
    raises ({ start with mxcsr := 0x1D80#32, cr4 := 0x200#32 }.setXm 0#3 0xBF800000#128) [0xF3#8, 0x0F#8, 0x5E#8, 0xC1#8]
      0x1D84#32 .ud &&
    raises (({ start with mxcsr := 0x0F80#32 }.setXm 0#3 0x3DCCCCCD#128).setXm 1#3 0x3E4CCCCD#128) [0xF3#8, 0x0F#8, 0x58#8, 0xC1#8]
      0x0FA0#32 .xm &&
    raises (({ start with mxcsr := 0x1D80#32 }.setXm 0#3 0x3F800000000000003F80000041200000#128).setXm 1#3
      0x40400000000000000000000040800000#128) [0x0F#8, 0x5E#8, 0xC1#8] 0x1D85#32 .xm &&
    raises (({ start with mxcsr := 0x9780#32 }.setXm 0#3 0x00800000#128).setXm 1#3 0x00800000#128) [0xF3#8, 0x0F#8, 0x59#8, 0xC1#8]
      0x97B0#32 .xm &&
    raises ({ start with mxcsr := 0x1F00#32 }.setXm 2#3 0x4F0000003F800000#128) [0x0F#8, 0x2D#8, 0xC2#8] 0x1F01#32 .xm)
    = true := by decide

/-- The first step after reset runs the word placed where it fetches. -/
theorem test_fetch_word : (match step (State.reset.withFetchWord 16 0x770F) with
    | .next t => t.twr == 0xFFFF#16 && t.pc == 0xFFF2#32
    | _ => false) = true := by decide

end Sys2Proof.Tests
end

section
/-! PROOFS. What an instruction that completes leaves of the state, said once for all 133 of them (`exec_leaves`), and what follows for
the system state, EFLAGS, MXCSR, the x87 and MMX state, and the invariant (10_state). -/

namespace Sys2Proof.Machine

/-! ### What almost every instruction keeps -/

/-- The system state and EFLAGS are unchanged, MXCSR has at most flags ORed in (10_state R42), and memory keeps its canonical form. -/
def Keeps (s t : State) : Prop :=
  SameSystem s t ∧ t.eflags = s.eflags ∧ (∃ f : FpFlags, t.mxcsr = s.mxcsr ||| f.setWidth 32) ∧ (s.mem.wf → t.mem.wf)

theorem Keeps.sameSystem {s t : State} : Keeps s t → SameSystem s t := And.left

theorem Keeps.eflags {s t : State} : Keeps s t → t.eflags = s.eflags := fun ⟨_, h, _⟩ => h

theorem Keeps.mxcsr {s t : State} : Keeps s t → ∃ f : FpFlags, t.mxcsr = s.mxcsr ||| f.setWidth 32 := fun ⟨_, _, h, _⟩ => h

theorem Keeps.mem_wf {s t : State} : Keeps s t → s.mem.wf → t.mem.wf := fun ⟨_, _, _, h⟩ => h

/-- ORing no flag in. -/
theorem or_noFlags (v : Dword) : v = v ||| noFlags.setWidth 32 := by simp [noFlags]

/-- Nothing written; and, field by field, any register written that is neither EFLAGS nor MXCSR. -/
theorem Keeps.refl (s : State) : Keeps s s := ⟨SameSystem.refl s, rfl, ⟨noFlags, or_noFlags _⟩, id⟩

/-- Recording flags, and then writing any register. -/
theorem Keeps.orMxcsr (s : State) (f : FpFlags) : Keeps s (s.orMxcsr f) := ⟨SameSystem.refl s, rfl, ⟨f, rfl⟩, id⟩

/-- Writing memory by an operation that keeps its form. -/
theorem Keeps.setMem {s : State} {m : Memory} (h : s.mem.wf → m.wf) : Keeps s { s with mem := m } :=
  ⟨SameSystem.refl s, rfl, ⟨noFlags, or_noFlags _⟩, h⟩

/-- What an instruction leaves of the x87 and MMX state, by its frame (10_state R30, R41): the MMX transition, or all of it. -/
def X87By (fr : Frame) (s t : State) : Prop :=
  match fr with
  | .mmx _ => MmxEntered s t
  | .xmmToMmx => MmxEntered s t
  | _ => SameX87 s t ∧ SameFpr s t

/-- What a completed instruction leaves: `frame`, the general case; EMMS has its own tag word, the two comparisons write EFLAGS, and
LDMXCSR and FXRSTOR load MXCSR, after refusing a reserved bit (10_state R25, R43; 44 R236). -/
inductive Leaves (s t : State) : Instr → Prop
  | frame {i : Instr} (keeps : Keeps s t) (x87 : X87By (frameOf i) s t) : Leaves s t i
  | emms (keeps : Keeps s t) : Leaves s t .emms
  | compare {i : Instr} {r : Reg} {rm : RM} {f : FpFlags} {v : Dword} (hi : i = .comiss r rm ∨ i = .ucomiss r rm)
      (ht : t = { s.orMxcsr f with eflags := v }) : Leaves s t i
  | ldmxcsr {m : Mem} {v : Dword} (legal : mxcsrIllegal v = false) (ht : t = { s with mxcsr := v }) : Leaves s t (.ldmxcsr m)
  | fxrstor {m : Mem} (system : SameSystem s t) (eflags : t.eflags = s.eflags)
      (mxcsr : t.mxcsr = s.mxcsr ∨ mxcsrIllegal t.mxcsr = false) (mem : t.mem = s.mem) : Leaves s t (.fxrstor m)

/-! ### Frame by frame -/

/-- An instruction of the MMX frame: everything but its x87 words as a state `u` that keeps the x87 words has it. -/
theorem Leaves.mmx {i : Instr} {since : Since} {s u : State} (hi : frameOf i = .mmx since) (hk : Keeps s u)
    (hx : SameX87 s u) : Leaves s u.mmxEnter i :=
  .frame hk (by rw [hi]; exact mmxEntered_mmxEnter hx)

/-- An instruction of the XMM frame that leaves the x87 state as it is. -/
theorem Leaves.xmm {i : Instr} {s t : State} (hi : frameOf i = .xmm) (hk : Keeps s t) (hx : SameX87 s t) (hf : SameFpr s t) :
    Leaves s t i :=
  .frame hk (by rw [hi]; exact ⟨hx, hf⟩)

theorem mmxBinary_leaves {i : Instr} {w : Nat} {since : Since} {read : State → RM → Except Stop (BitVec w)}
    {f : Qword → BitVec w → Qword} {s t : State} {r : Reg} {rm : RM} (h : (mmxBinary since read f s r rm).outcome = .next t)
    (hi : frameOf i = .mmx since) : Leaves s t i := by
  obtain ⟨-, v, -, rfl⟩ := mmxBinary_ok.mp (outcome_next.mp h)
  exact .mmx hi (Keeps.refl s) (SameX87.refl s)

theorem mmxUnary_leaves {i : Instr} {since : Since} {f : Qword → Qword} {s t : State} {r : Reg}
    (h : (mmxUnary since f s r).outcome = .next t) (hi : frameOf i = .mmx since) : Leaves s t i := by
  obtain ⟨-, rfl⟩ := mmxUnary_ok.mp (outcome_next.mp h)
  exact .mmx hi (Keeps.refl s) (SameX87.refl s)

theorem mmxToGpr_leaves {i : Instr} {since : Since} {f : Qword → Dword} {s t : State} {r q : Reg}
    (h : (mmxToGpr since f s r q).outcome = .next t) (hi : frameOf i = .mmx since) : Leaves s t i := by
  obtain ⟨-, rfl⟩ := mmxToGpr_ok.mp (outcome_next.mp h)
  exact .mmx hi (Keeps.refl s) (SameX87.refl s)

/-- The r/m destination written: a register through `f`, or bytes of memory. -/
theorem rmWrite_leaves {w n : Nat} {al : Bool} {f : State → Reg → BitVec w → State} {s t : State} {rm : RM} {v : BitVec w}
    (h : rmWrite n al f s rm v = .ok t) :
    (∃ q, t = f s q v) ∨ ∃ m : Memory, (s.mem.wf → m.wf) ∧ t = { s with mem := m } := by
  cases rm with
  | reg q => cases h; exact .inl ⟨q, rfl⟩
  | mem m =>
    obtain ⟨-, rfl⟩ := store_ok.mp h
    exact .inr ⟨_, fun hm => Memory.writeBytes_wf hm _ _, rfl⟩

theorem mmxStore_leaves {i : Instr} {w n : Nat} {since : Since} {f : State → Reg → BitVec w → State} {s t : State} {rm : RM}
    {v : BitVec w} (h : (mmxStore since n f s rm v).outcome = .next t) (hi : frameOf i = .mmx since)
    (hk : ∀ q, Keeps s (f s q v)) (hx : ∀ q, SameX87 s (f s q v)) : Leaves s t i := by
  obtain ⟨-, u, hu, rfl⟩ := mmxStore_ok.mp (outcome_next.mp h)
  obtain ⟨q, rfl⟩ | ⟨m, hm, rfl⟩ := rmWrite_leaves hu
  · exact .mmx hi (hk q) (hx q)
  · exact .mmx hi (Keeps.setMem hm) (SameX87.refl s)

theorem maskmovq_leaves {r q : Reg} {ovr : Option Seg} {size : AddrSize} {s t : State}
    (h : execMaskmovq r q ovr size s = .next t) : Leaves s t (.maskmovq r q ovr size) := by
  simp only [execMaskmovq, outcome_next, bind_ok, pure_ok, Except.ok.injEq] at h
  obtain ⟨-, -, -, -, rfl⟩ := h
  exact .mmx rfl (Keeps.setMem fun hm => Memory.writeEach_wf hm _) (SameX87.refl s)

theorem emms_leaves {s t : State} (h : execEmms s = .next t) : Leaves s t .emms := by
  simp only [execEmms, outcome_next, bind_ok, pure_ok, Except.ok.injEq] at h
  obtain ⟨-, -, rfl⟩ := h
  exact .emms (Keeps.refl s)

theorem xmmBinary_leaves {i : Instr} {w : Nat} {read : State → RM → Except Stop (BitVec w)} {f : Xword → BitVec w → Xword}
    {s t : State} {r : Reg} {rm : RM} (h : (xmmBinary read f s r rm).outcome = .next t) (hi : frameOf i = .xmm) :
    Leaves s t i := by
  obtain ⟨-, v, -, rfl⟩ := xmmBinary_ok.mp (outcome_next.mp h)
  exact .xmm hi (Keeps.refl s) (SameX87.refl s) (SameFpr.refl s)

theorem xmmStore_leaves {i : Instr} {w n : Nat} {al : Bool} {f : State → Reg → BitVec w → State} {s t : State} {rm : RM}
    {v : BitVec w} (h : (xmmStore n al f s rm v).outcome = .next t) (hi : frameOf i = .xmm)
    (hf : ∀ q, Keeps s (f s q v) ∧ SameX87 s (f s q v) ∧ SameFpr s (f s q v)) : Leaves s t i := by
  obtain ⟨-, hu⟩ := xmmStore_ok.mp (outcome_next.mp h)
  obtain ⟨q, rfl⟩ | ⟨m, hm, rfl⟩ := rmWrite_leaves hu
  · obtain ⟨hk, hx, hr⟩ := hf q
    exact .xmm hi hk hx hr
  · exact .xmm hi (Keeps.setMem hm) (SameX87.refl s) (SameFpr.refl s)

theorem xmmNumeric_leaves {i : Instr} {w : Nat} {read : State → RM → Except Stop (BitVec w)}
    {compute : Xword → BitVec w → Signalled Xword} {s t : State} {r : Reg} {rm : RM}
    (h : (xmmNumeric read compute s r rm).outcome = .next t) (hi : frameOf i = .xmm) : Leaves s t i := by
  obtain ⟨-, v, -, -, -, rfl⟩ := xmmNumeric_ok.mp (outcome_next.mp h)
  exact .xmm hi (Keeps.orMxcsr s _) (SameX87.refl s) (SameFpr.refl s)

/-- A numeric instruction that uses a draw: DIVPS and DIVSS. -/
theorem xmmNumericDrawn_leaves {i : Instr} {w : Nat} {read : State → RM → Except Stop (BitVec w)}
    {compute : Xword → BitVec w → Signalled Xword} {s t : State} {r : Reg} {rm : RM}
    (h : Effect.outcome (do let u ← xmmNumeric read compute s r rm; pure u.drawn) = .next t) (hi : frameOf i = .xmm) :
    Leaves s t i := by
  simp only [outcome_next, bind_ok, pure_ok, Except.ok.injEq] at h
  obtain ⟨u, hu, rfl⟩ := h
  obtain ⟨-, v, -, -, -, rfl⟩ := xmmNumeric_ok.mp hu
  exact .xmm hi (Keeps.orMxcsr s _) (SameX87.refl s) (SameFpr.refl s)

theorem xmmCompare_leaves {i : Instr} {signals : Dword → Dword → FpFlags} {s t : State} {r : Reg} {rm : RM}
    (h : (xmmCompare signals s r rm).outcome = .next t) (hi : i = .comiss r rm ∨ i = .ucomiss r rm) : Leaves s t i := by
  simp only [xmmCompare, outcome_next, bind_ok, finish_ok] at h
  obtain ⟨-, -, b, -, -, -, ht⟩ := h
  exact .compare hi ht

theorem xmmToGpr_leaves {i : Instr} {f : Dword → Signalled Dword} {s t : State} {r : Reg} {rm : RM}
    (h : (xmmToGpr f s r rm).outcome = .next t) (hi : frameOf i = .xmm) : Leaves s t i := by
  simp only [xmmToGpr, outcome_next, bind_ok, finish_ok] at h
  obtain ⟨-, -, v, -, -, -, rfl⟩ := h
  exact .xmm hi (Keeps.orMxcsr s _) (SameX87.refl s) (SameFpr.refl s)

theorem movmskps_leaves {r q : Reg} {s t : State} (h : execMovmskps r q s = .next t) : Leaves s t (.movmskps r q) := by
  simp only [execMovmskps, outcome_next, bind_ok, pure_ok, Except.ok.injEq] at h
  obtain ⟨-, -, rfl⟩ := h
  exact .xmm rfl (Keeps.refl s) (SameX87.refl s) (SameFpr.refl s)

theorem xmmToMmx_leaves {i : Instr} {f : Dword → Signalled Dword} {s t : State} {r : Reg} {rm : RM}
    (h : (xmmToMmx f s r rm).outcome = .next t) (hi : frameOf i = .xmmToMmx) : Leaves s t i := by
  simp only [xmmToMmx, outcome_next, bind_ok, finish_ok] at h
  obtain ⟨-, -, v, -, -, -, rfl⟩ := h
  exact .frame (Keeps.orMxcsr s _) (by rw [hi]; exact mmxEntered_mmxEnter (SameX87.refl s))

theorem cvtpi2ps_leaves {r : Reg} {rm : RM} {s t : State} (h : execCvtpi2ps r rm s = .next t) : Leaves s t (.cvtpi2ps r rm) := by
  simp only [execCvtpi2ps, outcome_next, bind_ok, finish_ok] at h
  obtain ⟨-, -, v, -, -, -, rfl⟩ := h
  exact .frame (Keeps.orMxcsr s _) (mmxEntered_mmxEnter (SameX87.refl s))

/-- A hint that completes changes nothing (48 R356, R357). -/
theorem hint_next {s t : State} (h : (hint s).outcome = .next t) : t = s := by
  simp only [hint, outcome_next, bind_ok, pure_ok, Except.ok.injEq] at h
  obtain ⟨-, -, rfl⟩ := h
  rfl

theorem hint_leaves {i : Instr} {s t : State} (h : (hint s).outcome = .next t) (hi : frameOf i = .hint) : Leaves s t i := by
  obtain rfl := hint_next h
  exact .frame (Keeps.refl t) (by rw [hi]; exact ⟨SameX87.refl t, SameFpr.refl t⟩)

/-! ### State management and system instructions -/

theorem ldmxcsr_leaves {m : Mem} {s t : State} (h : execLdmxcsr m s = .next t) : Leaves s t (.ldmxcsr m) := by
  simp only [execLdmxcsr, outcome_next, bind_ok, raiseIf_ok, pure_ok, Except.ok.injEq] at h
  obtain ⟨-, -, v, -, -, hv, rfl⟩ := h
  exact .ldmxcsr hv rfl

theorem fxsave_leaves {m : Mem} {s t : State} (h : execFxsave m s = .next t) : Leaves s t (.fxsave m) := by
  simp only [execFxsave, outcome_next, bind_ok, pure_ok, Except.ok.injEq] at h
  obtain ⟨-, -, -, -, rfl⟩ := h
  exact .frame (Keeps.setMem fun hm => Memory.writeBytes_wf hm _ _) ⟨SameX87.refl s, SameFpr.refl s⟩

theorem fxrstor_leaves {m : Mem} {s t : State} (h : execFxrstor m s = .next t) : Leaves s t (.fxrstor m) := by
  simp only [execFxrstor, outcome_next, bind_ok, raiseIf_ok, pure_ok, Except.ok.injEq] at h
  obtain ⟨-, -, -, -, -, legal, rfl⟩ := h
  unfold loadXmm
  split
  · exact .fxrstor (SameSystem.refl s) rfl (.inr legal) rfl
  · exact .fxrstor (SameSystem.refl s) rfl (.inl rfl) rfl

/-- A system instruction that leaves the x87 state as it is. -/
theorem Leaves.system {i : Instr} {s t : State} (hi : frameOf i = .system) (hk : Keeps s t) (hx : SameX87 s t) (hf : SameFpr s t) :
    Leaves s t i :=
  .frame hk (by rw [hi]; exact ⟨hx, hf⟩)

theorem rdtsc_leaves {s t : State} (h : execRdtsc s = .next t) : Leaves s t .rdtsc := by
  simp only [execRdtsc, outcome_next, bind_ok, pure_ok, Except.ok.injEq] at h
  obtain ⟨-, -, rfl⟩ := h
  exact .system rfl (Keeps.refl s) (SameX87.refl s) (SameFpr.refl s)

theorem rdmsr_leaves {s t : State} (h : execRdmsr s = .next t) : Leaves s t .rdmsr := by
  simp only [execRdmsr, outcome_next, bind_ok] at h
  obtain ⟨-, -, h⟩ := h
  split at h
  · cases h; exact .system rfl (Keeps.refl s) (SameX87.refl s) (SameFpr.refl s)
  · cases h; exact .system rfl (Keeps.refl s) (SameX87.refl s) (SameFpr.refl s)

theorem wrmsr_leaves {s t : State} (h : execWrmsr s = .next t) : Leaves s t .wrmsr := by
  simp only [execWrmsr, outcome_next, bind_ok] at h
  obtain ⟨-, -, h⟩ := h
  split at h
  · cases h; exact .system rfl (Keeps.refl s) (SameX87.refl s) (SameFpr.refl s)
  · cases h

theorem cpuid_leaves {s t : State} (h : execCpuid s = .next t) : Leaves s t .cpuid := by
  cases h
  exact .system rfl (Keeps.refl s) (SameX87.refl s) (SameFpr.refl s)

/-! ### Every instruction -/

/-- What every instruction that completes leaves, by the shape its meaning has. -/
theorem exec_leaves {i : Instr} {s t : State} (h : exec i s = .next t) : Leaves s t i := by
  cases i with
  | punpcklbw | punpcklwd | punpckldq | packsswb | pcmpgtb | pcmpgtw | pcmpgtd | packuswb | punpckhbw | punpckhwd | punpckhdq
  | packssdw | movdLoad | movqLoad | pcmpeqb | pcmpeqw | pcmpeqd | psrlw | psrld | psrlq | pmullw | psubusb | psubusw | pand
  | paddusb | paddusw | pandn | psraw | psrad | pmulhw | psubsb | psubsw | por | paddsb | paddsw | pxor | psllw | pslld | psllq
  | pmaddwd | psubb | psubw | psubd | paddb | paddw | paddd | pshufw | pinsrw | pminub | pmaxub | pavgb | pavgw | pmulhuw
  | pminsw | pmaxsw | psadbw => exact mmxBinary_leaves h rfl
  | psrlwImm | psrawImm | psllwImm | psrldImm | psradImm | pslldImm | psrlqImm | psllqImm => exact mmxUnary_leaves h rfl
  | pextrw | pmovmskb => exact mmxToGpr_leaves h rfl
  | movdStore | movqStore | movntq => exact mmxStore_leaves h rfl (fun _ => Keeps.refl s) (fun _ => SameX87.refl s)
  | maskmovq => exact maskmovq_leaves h
  | emms => exact emms_leaves h
  | movupsLoad | movssLoad | movlpsLoad | movhlps | unpcklps | unpckhps | movhpsLoad | movlhps | movapsLoad | rsqrtps | rsqrtss
  | rcpps | rcpss | andps | andnps | orps | xorps | shufps => exact xmmBinary_leaves h rfl
  | movupsStore | movssStore | movlpsStore | movhpsStore | movapsStore | movntps | stmxcsr =>
    exact xmmStore_leaves h rfl fun _ => ⟨Keeps.refl s, SameX87.refl s, SameFpr.refl s⟩
  | cvtsi2ss | sqrtps | sqrtss | addps | addss | mulps | mulss | subps | subss | minps | minss | maxps | maxss | cmpps | cmpss =>
    exact xmmNumeric_leaves h rfl
  | divps | divss => exact xmmNumericDrawn_leaves h rfl
  | comiss => exact xmmCompare_leaves h (.inl rfl)
  | ucomiss => exact xmmCompare_leaves h (.inr rfl)
  | cvttss2si | cvtss2si => exact xmmToGpr_leaves h rfl
  | movmskps => exact movmskps_leaves h
  | cvttps2pi | cvtps2pi => exact xmmToMmx_leaves h rfl
  | cvtpi2ps => exact cvtpi2ps_leaves h
  | prefetchnta | prefetcht0 | prefetcht1 | prefetcht2 | sfence => exact hint_leaves h rfl
  | fxsave => exact fxsave_leaves h
  | fxrstor => exact fxrstor_leaves h
  | ldmxcsr => exact ldmxcsr_leaves h
  | wrmsr => exact wrmsr_leaves h
  | rdtsc => exact rdtsc_leaves h
  | rdmsr => exact rdmsr_leaves h
  | cpuid => exact cpuid_leaves h

end Sys2Proof.Machine
end

section
/-! PROOFS. The statements about what every instruction keeps (10_state R23, R25, R30, R41, R42, R50, R51). -/

namespace Sys2Proof.Machine

theorem Leaves.sameSystem {i : Instr} {s t : State} (h : Leaves s t i) : SameSystem s t := by
  cases h with
  | frame keeps => exact keeps.sameSystem
  | emms keeps => exact keeps.sameSystem
  | compare _ ht => subst ht; exact SameSystem.refl s
  | ldmxcsr _ ht => subst ht; exact SameSystem.refl s
  | fxrstor system => exact system

theorem Leaves.eflags {i : Instr} {s t : State} (h : Leaves s t i) (he : t.eflags ≠ s.eflags) :
    ∃ r rm, i = .comiss r rm ∨ i = .ucomiss r rm := by
  cases h with
  | frame keeps => exact absurd keeps.eflags he
  | emms keeps => exact absurd keeps.eflags he
  | compare hi => exact ⟨_, _, hi⟩
  | ldmxcsr _ ht => subst ht; exact absurd rfl he
  | fxrstor _ eflags => exact absurd eflags he

/-- Only LDMXCSR and FXRSTOR do more to MXCSR than OR flags into it. -/
theorem Leaves.mxcsr {i : Instr} {s t : State} (h : Leaves s t i) (hl : ∀ m, i ≠ .ldmxcsr m) (hr : ∀ m, i ≠ .fxrstor m) :
    ∃ f : FpFlags, t.mxcsr = s.mxcsr ||| f.setWidth 32 := by
  cases h with
  | frame keeps => exact keeps.mxcsr
  | emms keeps => exact keeps.mxcsr
  | compare _ ht => subst ht; exact ⟨_, rfl⟩
  | ldmxcsr => exact absurd rfl (hl _)
  | fxrstor => exact absurd rfl (hr _)

/-- Every instruction keeps the canonical form of memory. -/
theorem Leaves.mem_wf {i : Instr} {s t : State} (h : Leaves s t i) (hm : s.mem.wf) : t.mem.wf := by
  cases h with
  | frame keeps => exact keeps.mem_wf hm
  | emms keeps => exact keeps.mem_wf hm
  | compare _ ht => subst ht; exact hm
  | ldmxcsr _ ht => subst ht; exact hm
  | fxrstor _ _ _ mem => rw [mem]; exact hm

/-- EMMS and FXRSTOR apart, the frame of an instruction says what it leaves of the x87 state. -/
theorem Leaves.x87 {i : Instr} {s t : State} (h : Leaves s t i) (he : i ≠ .emms) (hr : ∀ m, i ≠ .fxrstor m) :
    X87By (frameOf i) s t := by
  cases h with
  | frame _ x87 => exact x87
  | emms => exact absurd rfl he
  | compare hi ht =>
    subst ht
    obtain rfl | rfl := hi
    · exact ⟨SameX87.refl s, SameFpr.refl s⟩
    · exact ⟨SameX87.refl s, SameFpr.refl s⟩
  | ldmxcsr _ ht => subst ht; exact ⟨SameX87.refl s, SameFpr.refl s⟩
  | fxrstor => exact absurd rfl (hr _)

/-! ### The reserved bits of MXCSR -/

/-- No exception flag is a reserved bit of MXCSR (10_state R42, R43). -/
theorem setWidth_and_mxReserved (f : FpFlags) : f.setWidth 32 &&& mxReserved = 0#32 := by
  revert f; decide

/-- ORing flags into MXCSR sets no reserved bit. -/
theorem or_flags_and_mxReserved {v : Dword} (h : v &&& mxReserved = 0#32) (f : FpFlags) :
    (v ||| f.setWidth 32) &&& mxReserved = 0#32 := by
  rw [BitVec.and_comm, BitVec.and_or_distrib_left, BitVec.and_comm mxReserved, BitVec.and_comm mxReserved, h,
    setWidth_and_mxReserved, BitVec.or_zero]

theorem mxcsrIllegal_eq_false {v : Dword} : mxcsrIllegal v = false ↔ v &&& mxReserved = 0#32 := by
  simp [mxcsrIllegal]

/-- Every instruction keeps the reserved bits of MXCSR 0 (10_state R43). -/
theorem Leaves.mxcsr_reserved {i : Instr} {s t : State} (h : Leaves s t i) (hs : s.mxcsr &&& mxReserved = 0#32) :
    t.mxcsr &&& mxReserved = 0#32 := by
  have ored {u : State} (hu : ∃ f : FpFlags, u.mxcsr = s.mxcsr ||| f.setWidth 32) : u.mxcsr &&& mxReserved = 0#32 := by
    obtain ⟨f, hf⟩ := hu
    rw [hf]; exact or_flags_and_mxReserved hs f
  cases h with
  | frame keeps => exact ored keeps.mxcsr
  | emms keeps => exact ored keeps.mxcsr
  | compare _ ht => subst ht; exact ored ⟨_, rfl⟩
  | ldmxcsr legal ht => subst ht; exact mxcsrIllegal_eq_false.mp legal
  | fxrstor _ _ mxcsr =>
    obtain same | legal := mxcsr
    · rw [same]; exact hs
    · exact mxcsrIllegal_eq_false.mp legal

/-! ### The invariant -/

theorem State.inv_iff {s : State} :
    s.inv = true ↔ s.mem.wf = true ∧ s.mxcsr &&& mxReserved = 0#32 ∧ s.cpl = s.segs.cs.selector.extractLsb' 0 2 := by
  simp [State.inv, and_assoc]

/-- Every instruction keeps the invariant. -/
theorem Leaves.inv {i : Instr} {s t : State} (h : Leaves s t i) (hs : s.inv) : t.inv := by
  obtain ⟨hm, hx, hc⟩ := State.inv_iff.mp hs
  obtain ⟨-, hsegs, -, -, -, hcpl, -⟩ := h.sameSystem
  exact State.inv_iff.mpr ⟨h.mem_wf hm, h.mxcsr_reserved hx, by rw [hcpl, hsegs]; exact hc⟩

/-- The program counter is no part of the invariant. -/
@[simp] theorem State.advance_inv (s : State) (n : Nat) : (s.advance n).inv = s.inv := rfl

/-! ### One step -/

theorem lengthCheck_ok {len : Nat} {s : State} {u : Unit} : lengthCheck len s = .ok u ↔ len ≤ 15 := by
  unfold lengthCheck maxLength
  split
  · next h => exact ⟨fun e => absurd e raise_ok, fun e => by omega⟩
  · next h => exact ⟨fun _ => by omega, fun _ => rfl⟩

/-- What has no decoding never completes. -/
theorem decodeStop_ne_next {e : DecodeError} {s t : State} : Effect.outcome (decodeStop e s) ≠ .next t := by
  cases e with
  | outOfBytes =>
    simp only [decodeStop, fetchOverrun]
    split
    · nofun
    · nofun
  | notInstruction => nofun
  | reservedPrefix => nofun

theorem advanceOutcome_next {len : Nat} {o : Host.Outcome State Fault Refusal} {t : State} :
    advanceOutcome len o = .next t ↔ ∃ u, o = .next u ∧ t = u.advance len := by
  cases o with
  | next u => simp only [advanceOutcome, Host.Outcome.next.injEq, exists_eq_left', eq_comm]
  | fault f => simp [advanceOutcome]
  | refused r => simp [advanceOutcome]

/-- What a step that completes did: the bytes decoded, with a length of at most 15, what they stand for completed, and the program
counter moved on (10_state R24; 30_encoding R104). -/
theorem step_next {s t : State} (h : step s = .next t) :
    ∃ d len u, decode s.plat.codeSize s.fetchBytes = .ok (d, len) ∧ len ≤ 15 ∧ runDecoded d s = .next u ∧
      t = u.advance len := by
  unfold step at h
  split at h
  · exact absurd h decodeStop_ne_next
  · next d len hd =>
    split at h
    · next stop _ => cases stop <;> cases h
    · next hl =>
      obtain ⟨u, hu, rfl⟩ := advanceOutcome_next.mp h
      exact ⟨d, len, u, hd, lengthCheck_ok.mp hl, hu, rfl⟩

/-- Decoded bytes that complete are an instruction, or a reserved hint, which changes nothing (30_encoding R117; log 14). -/
theorem runDecoded_next {d : Decoded} {s u : State} (h : runDecoded d s = .next u) :
    (∃ i, d = .instr i ∧ Leaves s u i) ∨ d = .reservedHint ∧ u = s := by
  cases d with
  | instr i => exact .inl ⟨i, rfl, exec_leaves h⟩
  | reservedHint => exact .inr ⟨rfl, hint_next h⟩
  | invalidForm => cases h
  | locked => cases h

theorem runDecoded_inv {d : Decoded} {s u : State} (h : runDecoded d s = .next u) (hs : s.inv) : u.inv := by
  obtain ⟨i, -, hl⟩ | ⟨-, rfl⟩ := runDecoded_next h
  · exact hl.inv hs
  · exact hs

theorem runDecoded_pc {d : Decoded} {s u : State} (h : runDecoded d s = .next u) : u.pc = s.pc := by
  obtain ⟨i, -, hl⟩ | ⟨-, rfl⟩ := runDecoded_next h
  · exact hl.sameSystem.1
  · rfl

/-- Settles O8: only LDMXCSR and FXRSTOR load MXCSR, and they look at the reserved bits first; every store keeps memory's form. -/
theorem stepKeepsTheInvariant : Obligations.StepKeepsTheInvariant := by
  intro s t hs h
  obtain ⟨d, len, u, -, -, hu, rfl⟩ := step_next h
  rw [State.advance_inv]
  exact runDecoded_inv hu hs

/-- Settles O11, from what every instruction leaves (`exec_leaves`). -/
theorem systemStateAndEflagsAreKept : Obligations.SystemStateAndEflagsAreKept :=
  ⟨fun _ _ _ h => (exec_leaves h).sameSystem, fun _ _ _ h he => (exec_leaves h).eflags he⟩

/-- Settles O12, from what every instruction leaves (`exec_leaves`). -/
theorem mxcsrFlagsAreSticky : Obligations.MxcsrFlagsAreSticky :=
  fun _ _ _ h hl hr => (exec_leaves h).mxcsr hl hr

/-- Settles O13: the frame decides between the MMX transition and no change; EMMS and FXRSTOR are set apart by the statement. -/
theorem mmxTransitionByFrame : Obligations.MmxTransitionByFrame := by
  intro i s t h
  have hx := (exec_leaves h).x87
  refine ⟨fun ⟨since, hi⟩ he => ?_, fun hi => ?_, fun hi => ?_⟩
  · have := hx he (by rintro m rfl; cases hi)
    rw [hi] at this
    exact this
  · have := hx (by rintro rfl; cases hi) (by rintro m rfl; cases hi)
    rw [hi] at this
    exact this
  · have := hx (by rintro rfl; simp [frameOf] at hi) (by rintro m rfl; simp [frameOf] at hi)
    obtain hi | hi | hi | ⟨m, rfl⟩ := hi
    any_goals rw [hi] at this
    all_goals exact this

/-- Settles O1: `step` is `exec` of what was decoded, once the length has been looked at. -/
theorem stepRunsTheDecodedInstruction : Obligations.StepRunsTheDecodedInstruction := by
  intro s i len hd hl _
  have hc : lengthCheck len s = .ok () := lengthCheck_ok.mpr hl
  simp only [step, hd, hc, runDecoded]
  cases exec i s with
  | next t => rfl
  | fault f => rfl
  | refused r => rfl

/-- Settles O15: the fields of MXCSR after reset, read off its value (10_state R60). -/
theorem resetLeavesTheStatedValues : Obligations.ResetLeavesTheStatedValues := by
  unfold Obligations.ResetLeavesTheStatedValues
  decide

end Sys2Proof.Machine
end

section
/-! PROOFS. The states after reset and at launch (10_state R60 to R62; 70 R423). -/

namespace Sys2Proof.Machine

/-! ### Reset -/

@[simp] theorem State.reset_fp (q : Reg) : State.reset.fp q = 0#80 := Vector.getElem_replicate q.isLt

@[simp] theorem State.reset_xm (q : Reg) : State.reset.xm q = 0#128 := Vector.getElem_replicate q.isLt

/-- The general registers after reset: the signature in EDX, 0 elsewhere (10_state R61; log 3, 4). -/
theorem State.reset_x (q : Reg) : State.reset.x q = if q = 2#3 then defaultPlatform.signature else 0#32 := by
  revert q; decide

/-- Settles O16: the table of 10_state R61, row by row. -/
theorem resetTable : Obligations.ResetTable :=
  ⟨rfl, rfl, rfl, rfl, rfl, rfl, rfl, rfl, State.reset_fp, rfl, rfl, rfl, State.reset_xm, rfl,
    fun q hq => by rw [State.reset_x, if_neg hq]⟩

/-! ### The words a launch rewrites -/

/-- A word unchanged by clearing SWR.TOS: TOS is 0 (10_state R26). -/
theorem and_eq_self_of_tosOf {swr : Word} (h : tosOf swr = 0#3) : swr &&& 0xC7FF#16 = swr := by
  have bit (i : Nat) (hi : i < 3) : swr.getLsbD (11 + i) = false := by
    have := congrArg (·.getLsbD i) h
    simpa [tosOf, hi] using this
  have h0 := bit 0 (by omega)
  have h1 := bit 1 (by omega)
  have h2 := bit 2 (by omega)
  apply BitVec.eq_of_getLsbD_eq
  intro i hi
  interval_cases i <;> simp_all

/-- The CS selector of a launch has the given low two bits (10_state R51). -/
theorem launchSelector_low (v : Word) (cpl : BitVec 2) :
    ((v &&& 0xFFFC#16) ||| cpl.setWidth 16).extractLsb' 0 2 = cpl := by
  apply BitVec.eq_of_getLsbD_eq
  intro i hi
  interval_cases i <;> simp

/-- A selector whose low two bits are given already is that of a launch with them. -/
theorem launchSelector_self (v : Word) : (v &&& 0xFFFC#16) ||| (v.extractLsb' 0 2).setWidth 16 = v := by
  apply BitVec.eq_of_getLsbD_eq
  intro i hi
  interval_cases i <;> simp

/-- CR0 of a launch: PE is set; EM, TS and AM are clear (70 R423; log 2). -/
theorem launchCr0_bits (v : Dword) :
    let c := (v &&& 0xFFFBFFF3#32) ||| 0x00000001#32
    c.getLsbD 0 = true ∧ c.getLsbD 2 = false ∧ c.getLsbD 3 = false ∧ c.getLsbD 18 = false := by
  simp

/-- A CR0 with those bits is unchanged by a launch. -/
theorem launchCr0_self {v : Dword} (h0 : v.getLsbD 0 = true) (h2 : v.getLsbD 2 = false) (h3 : v.getLsbD 3 = false)
    (h18 : v.getLsbD 18 = false) : (v &&& 0xFFFBFFF3#32) ||| 0x00000001#32 = v := by
  apply BitVec.eq_of_getLsbD_eq
  intro i hi
  interval_cases i <;> simp_all

/-- CR4 of a launch: TSD as given; OSFXSR and OSXMMEXCPT set (70 R423). -/
theorem launchCr4_bits (v : Dword) (tsd : Bool) :
    let c := (v &&& 0xFFFFFFFB#32) ||| (if tsd then 0x00000604#32 else 0x00000600#32)
    c.getLsbD 2 = tsd ∧ c.getLsbD 9 = true ∧ c.getLsbD 10 = true := by
  cases tsd <;> simp

/-- A CR4 with OSFXSR and OSXMMEXCPT set is unchanged by a launch with its own TSD. -/
theorem launchCr4_self {v : Dword} (h9 : v.getLsbD 9 = true) (h10 : v.getLsbD 10 = true) :
    (v &&& 0xFFFFFFFB#32) ||| (if v.getLsbD 2 then 0x00000604#32 else 0x00000600#32) = v := by
  apply BitVec.eq_of_getLsbD_eq
  intro i hi
  cases h2 : v.getLsbD 2 <;> interval_cases i <;> simp_all

/-! ### Launches -/

/-- The rows of 70 R423, as equations. -/
theorem launched_iff {s : State} :
    launched s = true ↔
      (s.plat.gen = .pentiumIII ∧ s.plat.codeSize = .c32 ∧ s.pc = s.plat.codeBase) ∧
      (s.pe = true ∧ s.em = false ∧ s.ts = false ∧ s.am = false ∧ s.osfxsr = true ∧ s.osxmmexcpt = true) ∧
      (s.x87Pending = false ∧ s.twr = 0xFFFF#16 ∧ tosOf s.swr = 0#3 ∧ s.mxcsr = 0x00001F80#32) ∧
      s.cpl = s.segs.cs.selector.extractLsb' 0 2 ∧
      s.segs.cs.base = 0#32 ∧ s.segs.ds.base = 0#32 ∧ s.segs.ss.base = 0#32 ∧ s.segs.es.base = 0#32 ∧ s.segs.fs.base = 0#32 ∧
      s.segs.gs.base = 0#32 := by
  simp only [launched, Bool.and_eq_true, beq_iff_eq, Bool.not_eq_true', and_assoc]

/-- A launch from any state has every row of 70 R423. -/
theorem launched_launch (any : State) (cpl : BitVec 2) (tsd : Bool) (codeBase : Addr) :
    launched (State.launch any cpl tsd codeBase) = true := by
  obtain ⟨hpe, hem, hts, ham⟩ := launchCr0_bits any.cr0
  obtain ⟨-, hfx, hxm⟩ := launchCr4_bits any.cr4 tsd
  exact launched_iff.mpr ⟨⟨rfl, rfl, rfl⟩, ⟨hpe, hem, hts, ham, hfx, hxm⟩, ⟨rfl, rfl, tosOf_clearTos any.swr, rfl⟩,
    (launchSelector_low any.segs.cs.selector cpl).symm, rfl, rfl, rfl, rfl, rfl, rfl⟩

/-- A launch has the invariant where the memory it is taken from has its canonical form. -/
theorem launch_inv {any : State} (cpl : BitVec 2) (tsd : Bool) (codeBase : Addr) (hm : any.mem.wf) :
    (State.launch any cpl tsd codeBase).inv = true := by
  have hc := (launchSelector_low any.segs.cs.selector cpl).symm
  simp only [State.inv, State.launch_mem, State.launch_mxcsr, State.launch_cpl, Bool.and_eq_true, beq_iff_eq]
  exact ⟨⟨hm, rfl⟩, hc⟩

theorem SegReg.flat_self {r : SegReg} (h : r.base = 0#32) : r.flat = r := by
  rw [SegReg.flat, ← h]

/-- Flat segment registers are those of a launch with the CPL they hold. -/
theorem SegRegs.launch_self {g : SegRegs} {cpl : BitVec 2} (hcpl : cpl = g.cs.selector.extractLsb' 0 2) (hcs : g.cs.base = 0#32)
    (hds : g.ds.base = 0#32) (hss : g.ss.base = 0#32) (hes : g.es.base = 0#32) (hfs : g.fs.base = 0#32) (hgs : g.gs.base = 0#32) :
    g.launch cpl = g := by
  rw [SegRegs.launch, SegReg.flat_self hds, SegReg.flat_self hss, SegReg.flat_self hes, SegReg.flat_self hfs, SegReg.flat_self hgs,
    hcpl, launchSelector_self, ← hcs]

/-- A state with the rows of 70 R423 is the launch from itself: every word a launch rewrites has its value already. -/
theorem launch_self {s : State} (h : launched s) : State.launch s s.cpl s.tsd s.plat.codeBase = s := by
  obtain ⟨⟨hgen, hsize, hpc⟩, ⟨hpe, hem, hts, ham, hfx, hxm⟩, ⟨hpend, htwr, htos, hmx⟩, hcpl, hcs, hds, hss, hes, hfs, hgs⟩ :=
    launched_iff.mp h
  have hplat : ({ s.plat with gen := .pentiumIII, codeSize := .c32, codeBase := s.plat.codeBase } : Platform) = s.plat := by
    rw [← hgen, ← hsize]
  have hsegs := SegRegs.launch_self hcpl hcs hds hss hes hfs hgs
  have hcr0 := launchCr0_self hpe hem hts ham
  have hcr4 : (s.cr4 &&& 0xFFFFFFFB#32) ||| (if s.tsd then 0x00000604#32 else 0x00000600#32) = s.cr4 := launchCr4_self hfx hxm
  rw [State.launch, hsegs, and_eq_self_of_tosOf htos, ← htwr, ← hpend, ← hmx, hcr0, hcr4, hplat, ← hpc]

/-- Settles O7: reset by evaluation; a launch row by row; and a state with the rows is the launch from itself. -/
theorem invariantHoldsAtReset : Obligations.InvariantHoldsAtReset :=
  ⟨rfl, fun any cpl tsd codeBase =>
    ⟨launched_launch any cpl tsd codeBase, rfl, (launchCr4_bits any.cr4 tsd).1, rfl, launch_inv cpl tsd codeBase, SameGpr.refl any, rfl,
      SameFpr.refl any, SameXmm.refl any, rfl, rfl, SameDraws.refl any, rfl, rfl, rfl⟩,
    fun _ => launch_self⟩

end Sys2Proof.Machine
end

section
/-! PROOFS. The decoder: what it answers where bytes decode, how far it looks, and that the bytes the encoder writes are read back, after
any prefixes (30_encoding R100 to R112). -/

namespace Sys2Proof

/-! ### Parsers give back no more than they were given -/

/-- What a parser leaves is no longer than what it was given. -/
def Shrinks {α : Type} (parse : List Byte → Except DecodeError (α × List Byte)) : Prop :=
  ∀ bs x r, parse bs = .ok (x, r) → r.length ≤ bs.length

theorem Shrinks.pure {α : Type} (x : α) : Shrinks fun bs => .ok (x, bs) := fun _ _ _ h => by cases h; exact le_rfl

theorem Shrinks.bind {α β : Type} {p : List Byte → Except DecodeError (α × List Byte)}
    {q : α → List Byte → Except DecodeError (β × List Byte)} (hp : Shrinks p) (hq : ∀ x, Shrinks (q x)) :
    Shrinks fun bs => (p bs).bind fun a => q a.1 a.2 := by
  intro bs y r h
  dsimp only at h
  cases hb : p bs with
  | error err => rw [hb] at h; cases h
  | ok a =>
    rw [hb] at h
    exact (hq a.1 a.2 y r h).trans (hp bs a.1 a.2 hb)

theorem Shrinks.cons {α : Type} {p : List Byte → Except DecodeError (α × List Byte)} (h0 : p [] = .error .outOfBytes)
    (hp : ∀ b, Shrinks fun bs => p (b :: bs)) : Shrinks p := by
  rintro (_ | ⟨b, bs⟩) x r h
  · rw [h0] at h; cases h
  · exact (hp b bs x r h).trans (Nat.le_succ _)

theorem takeImm_shrinks : Shrinks takeImm := Shrinks.cons rfl fun b => Shrinks.pure b

theorem takeDisp32_shrinks (mod : BitVec 2) : Shrinks (takeDisp32 mod) := by
  unfold takeDisp32
  by_cases h0 : mod = 0#2
  · simp only [if_pos h0]; exact Shrinks.pure _
  · by_cases h1 : mod = 1#2
    · simp only [if_neg h0, if_pos h1]; exact Shrinks.cons rfl fun _ => Shrinks.pure _
    · simp only [if_neg h0, if_neg h1]
      exact Shrinks.cons rfl fun _ => Shrinks.cons rfl fun _ => Shrinks.cons rfl fun _ => Shrinks.cons rfl fun _ => Shrinks.pure _

theorem takeDisp16_shrinks (mod : BitVec 2) : Shrinks (takeDisp16 mod) := by
  unfold takeDisp16
  by_cases h0 : mod = 0#2
  · simp only [if_pos h0]; exact Shrinks.pure _
  · by_cases h1 : mod = 1#2
    · simp only [if_neg h0, if_pos h1]; exact Shrinks.cons rfl fun _ => Shrinks.pure _
    · simp only [if_neg h0, if_neg h1]
      exact Shrinks.cons rfl fun _ => Shrinks.cons rfl fun _ => Shrinks.pure _

theorem parseMem32_shrinks (ovr : Option Seg) (mod : BitVec 2) (rm : Reg) : Shrinks (parseMem32 ovr mod rm) := by
  have disp (mod : BitVec 2) (b : Option Reg) (i : Option (Reg × BitVec 2)) :=
    (takeDisp32_shrinks mod).bind fun d => Shrinks.pure (Mem.a32 ovr b i d)
  by_cases h4 : rm = 4#3
  · refine Shrinks.cons (by simp [parseMem32, h4]) fun sib => ?_
    simp only [parseMem32, if_pos h4]
    split
    · exact disp _ _ _
    · exact disp _ _ _
  · unfold parseMem32
    simp only [if_neg h4]
    split
    · exact disp _ _ _
    · exact disp _ _ _

theorem parseMem16_shrinks (ovr : Option Seg) (mod : BitVec 2) (rm : Reg) : Shrinks (parseMem16 ovr mod rm) := by
  have disp (mod : BitVec 2) (b : Option Base16) := (takeDisp16_shrinks mod).bind fun d => Shrinks.pure (Mem.a16 ovr b d)
  unfold parseMem16
  split
  · exact disp _ _
  · exact disp _ _

theorem parseRM_shrinks (size : AddrSize) (ovr : Option Seg) (mod : BitVec 2) (rm : Reg) : Shrinks (parseRM size ovr mod rm) := by
  unfold parseRM
  split
  · exact Shrinks.pure _
  · cases size
    · exact (parseMem16_shrinks ovr mod rm).bind fun m => Shrinks.pure (RM.mem m)
    · exact (parseMem32_shrinks ovr mod rm).bind fun m => Shrinks.pure (RM.mem m)

theorem parseForm_shrinks (size : AddrSize) (ovr : Option Seg) (f : Form) : Shrinks (parseForm size ovr f) := by
  unfold parseForm
  split
  · refine Shrinks.cons rfl fun m => ?_
    have rm := parseRM_shrinks size ovr (fieldMod m) (fieldRm m)
    cases f.hasImm
    · exact rm.bind fun rm => Shrinks.pure (f.build size ovr (fieldReg m) rm 0#8)
    · exact rm.bind fun rm => takeImm_shrinks.bind fun imm => Shrinks.pure (f.build size ovr (fieldReg m) rm imm)
  · exact Shrinks.pure _

/-! ### Prefixes (R104, R106) -/

/-- What follows the prefixes is no longer than the whole. -/
theorem scanPrefixes_rest_length_le (bs : List Byte) (p : Prefixes) : (scanPrefixes bs p).2.length ≤ bs.length := by
  have := scanPrefixes_length bs p (fun j => bs.getD j 0#8) 0 fun j hj => by simp [hj]
  omega

/-- Where the prefixes end inside a string, what is appended follows what was left. -/
theorem scanPrefixes_append {bs : List Byte} {p q : Prefixes} {b : Byte} {r : List Byte} (h : scanPrefixes bs p = (q, b :: r))
    (e : List Byte) : scanPrefixes (bs ++ e) p = (q, b :: (r ++ e)) := by
  induction bs generalizing p with
  | nil => cases h
  | cons c bs ih =>
    simp only [List.cons_append, scanPrefixes] at h ⊢
    cases hc : notePrefix p c with
    | some p' => rw [hc] at h; exact ih h
    | none => rw [hc] at h; cases h; rfl

/-- Fewer bytes have no more prefixes in front. -/
theorem prefixRun_mono (byteAt : Nat → Byte) {n m : Nat} (h : n ≤ m) (k : Nat) : prefixRun byteAt n k ≤ prefixRun byteAt m k := by
  induction n generalizing m k with
  | zero => exact Nat.zero_le _
  | succ n ih =>
    obtain ⟨m, rfl⟩ : ∃ m', m = m' + 1 := ⟨m - 1, by omega⟩
    simp only [prefixRun]
    split
    · exact Nat.add_le_add_right (ih (by omega) (k + 1)) 1
    · exact le_rfl

/-- A segment-override byte is noted as an override, and as nothing else. -/
theorem notePrefix_seg {b : Byte} (hb : b ∈ [0x26#8, 0x2E#8, 0x36#8, 0x3E#8, 0x64#8, 0x65#8]) (p : Prefixes) :
    ∃ o, notePrefix p b = some { p with ovr := o } := by
  simp only [List.mem_cons, List.not_mem_nil, or_false] at hb
  obtain rfl | rfl | rfl | rfl | rfl | rfl := hb <;> exact ⟨_, rfl⟩

/-- Segment-override bytes in front leave an override noted, and nothing else. -/
theorem scanPrefixes_segs {pre : List Byte} (hp : ∀ b ∈ pre, b ∈ [0x26#8, 0x2E#8, 0x36#8, 0x3E#8, 0x64#8, 0x65#8]) (p : Prefixes) :
    ∃ o, ∀ bs, scanPrefixes (pre ++ bs) p = scanPrefixes bs { p with ovr := o } := by
  induction pre generalizing p with
  | nil => exact ⟨p.ovr, fun _ => rfl⟩
  | cons b pre ih =>
    obtain ⟨hb, hpre⟩ := List.forall_mem_cons.mp hp
    obtain ⟨o, ho⟩ := notePrefix_seg hb p
    obtain ⟨o', h⟩ := ih hpre { p with ovr := o }
    exact ⟨o', fun bs => by simp only [List.cons_append, scanPrefixes, ho]; exact h bs⟩

/-- A segment override, 67h and F3h are noted (R106). -/
theorem notePrefix_isSome {b : Byte} (hb : b ∈ [0x26#8, 0x2E#8, 0x36#8, 0x3E#8, 0x64#8, 0x65#8, 0x67#8, 0xF3#8]) (p : Prefixes) :
    ∃ p', notePrefix p b = some p' := by
  simp only [List.mem_cons, List.not_mem_nil, or_false] at hb
  obtain rfl | rfl | rfl | rfl | rfl | rfl | rfl | rfl := hb <;> exact ⟨_, rfl⟩

/-- A byte that is none of the prefixes of R106 ends them. -/
theorem notePrefix_eq_none {b : Byte}
    (hb : b ∉ [0x26#8, 0x2E#8, 0x36#8, 0x3E#8, 0x64#8, 0x65#8, 0x67#8, 0xF3#8, 0x66#8, 0xF2#8, 0xF0#8, 0x0F#8]) (p : Prefixes) :
    notePrefix p b = none := by
  simp only [List.mem_cons, List.not_mem_nil, or_false, not_or] at hb
  obtain ⟨h26, h2E, h36, h3E, h64, h65, h67, hF3, h66, hF2, hF0, -⟩ := hb
  simp only [notePrefix, if_neg h26, if_neg h2E, if_neg h36, if_neg h3E, if_neg h64, if_neg h65, if_neg h67, if_neg hF3, if_neg h66,
    if_neg hF2, if_neg hF0]

/-- After noted prefixes comes the first byte that is none. -/
theorem scanPrefixes_until {pre : List Byte} {b : Byte} {rest : List Byte}
    (hp : ∀ x ∈ pre, x ∈ [0x26#8, 0x2E#8, 0x36#8, 0x3E#8, 0x64#8, 0x65#8, 0x67#8, 0xF3#8])
    (hb : b ∉ [0x26#8, 0x2E#8, 0x36#8, 0x3E#8, 0x64#8, 0x65#8, 0x67#8, 0xF3#8, 0x66#8, 0xF2#8, 0xF0#8, 0x0F#8]) (p : Prefixes) :
    (scanPrefixes (pre ++ b :: rest) p).2 = b :: rest := by
  induction pre generalizing p with
  | nil => simp only [List.nil_append, scanPrefixes, notePrefix_eq_none hb]
  | cons x pre ih =>
    obtain ⟨hx, hpre⟩ := List.forall_mem_cons.mp hp
    obtain ⟨p', h⟩ := notePrefix_isSome hx p
    simp only [List.cons_append, scanPrefixes, h]
    exact ih hpre p'

/-! ### The decoder after the prefixes (R104) -/

/-- No prefixes noted: what the decoder starts from. -/
def noPrefixes : Prefixes := {}

/-- The row of the maps that the two bytes after the prefixes name, or why there is none: no opcode of this spec, or prefixes that it
does not take (R104, R106). -/
def opcodeRow (p : Prefixes) (b op : Byte) : Except DecodeError Form :=
  if b ≠ 0x0F#8 then .error .notInstruction
  else
    match findForm p.f3 op with
    | none => if (findForm false op).isSome then .error .reservedPrefix else .error .notInstruction
    | some f => if p.f2 || (p.p66 && !f.takes66) then .error .reservedPrefix else .ok f

/-- The decoder, where at least two bytes follow the prefixes: the row of the opcode, then its parser, and the length read. -/
theorem decode_eq_row {cs : CodeSize} {bs : List Byte} {p : Prefixes} {b op : Byte} {r : List Byte}
    (hs : scanPrefixes bs noPrefixes = (p, b :: op :: r)) :
    decode cs bs = (opcodeRow p b op).bind fun f => (parseForm (addrSizeOf cs p.a67) p.ovr f r).bind fun a =>
      .ok (if p.lock then .locked else a.1, bs.length - a.2.length) := by
  have hs' : scanPrefixes bs ⟨none, false, false, false, false, false⟩ = (p, b :: op :: r) := hs
  simp only [decode, hs', opcodeRow]
  split
  · rfl
  · cases findForm p.f3 op with
    | none => dsimp only; split <;> rfl
    | some f => dsimp only; split <;> rfl

/-- The bytes after the prefixes name no row for a reason other than that they end. -/
theorem opcodeRow_error {p : Prefixes} {b op : Byte} {e : DecodeError} (h : opcodeRow p b op = .error e) : e ≠ .outOfBytes := by
  rintro rfl
  unfold opcodeRow at h
  split at h
  · cases h
  · split at h
    · split at h <;> cases h
    · split at h <;> cases h

/-- A row that the maps have, after prefixes that it takes. -/
theorem opcodeRow_ok {p : Prefixes} {op : Byte} {f : Form} (hf : findForm p.f3 op = some f)
    (hp : (p.f2 || (p.p66 && !f.takes66)) = false) : opcodeRow p 0x0F#8 op = .ok f := by
  simp only [opcodeRow, hf, hp, ne_eq, not_true_eq_false, if_false, Bool.false_eq_true]

/-- A first byte after the prefixes that is not 0Fh is no instruction, whatever follows (R104, R120). -/
theorem decode_notInstruction {cs : CodeSize} {bs : List Byte} {b : Byte} {r : List Byte}
    (hs : (scanPrefixes bs noPrefixes).2 = b :: r) (hb : b ≠ 0x0F#8) : decode cs bs = .error .notInstruction := by
  have hs' : (scanPrefixes bs ⟨none, false, false, false, false, false⟩).2 = b :: r := hs
  simp only [decode, hs', ne_eq, hb, not_false_eq_true, if_true]

/-- Fewer than two bytes after the prefixes do not decode. -/
theorem decode_ne_ok_of_short {cs : CodeSize} {bs : List Byte} (hs : (scanPrefixes bs noPrefixes).2.length < 2) (a : Decoded × Nat) :
    decode cs bs ≠ .ok a := by
  have hn : scanPrefixes bs ⟨none, false, false, false, false, false⟩ = scanPrefixes bs noPrefixes := rfl
  simp only [decode, hn]
  match h : (scanPrefixes bs noPrefixes).2 with
  | [] => nofun
  | [b] =>
    dsimp only
    split
    · nofun
    · nofun
  | _ :: _ :: _ => rw [h] at hs; simp at hs

/-- An instruction has a length: at least 0Fh and the opcode are read (R100, R104). -/
theorem decode_length_pos {cs : CodeSize} {bs : List Byte} {d : Decoded} {len : Nat} (h : decode cs bs = .ok (d, len)) :
    1 ≤ len := by
  have hle := scanPrefixes_rest_length_le bs noPrefixes
  match hs : scanPrefixes bs noPrefixes with
  | (p, b :: op :: r) =>
    rw [decode_eq_row hs] at h
    cases hrow : opcodeRow p b op with
    | error e => rw [hrow] at h; cases h
    | ok f =>
      cases hparse : parseForm (addrSizeOf cs p.a67) p.ovr f r with
      | error e => rw [hrow, Except.bind, hparse] at h; cases h
      | ok a =>
        rw [hrow, Except.bind, hparse] at h
        cases h
        have := parseForm_shrinks _ _ _ _ _ _ hparse
        simp only [hs, List.length_cons] at hle
        omega
  | (p, []) => exact absurd h (decode_ne_ok_of_short (by simp [hs]) _)
  | (p, [b]) => exact absurd h (decode_ne_ok_of_short (by simp [hs]) _)

/-- Nine bytes after the prefixes are all that an instruction can have: more change nothing, and the bytes do not run out (R100). -/
theorem decode_append {cs : CodeSize} {bs : List Byte} (h : 9 ≤ (scanPrefixes bs noPrefixes).2.length) (e : List Byte) :
    decode cs (bs ++ e) = decode cs bs ∧ decode cs bs ≠ .error .outOfBytes := by
  match hs : scanPrefixes bs noPrefixes with
  | (p, b :: op :: r) =>
    have hs' : scanPrefixes (bs ++ e) noPrefixes = (p, b :: op :: (r ++ e)) := scanPrefixes_append hs e
    rw [decode_eq_row hs, decode_eq_row hs']
    cases hrow : opcodeRow p b op with
    | error err => exact ⟨rfl, fun h => opcodeRow_error hrow (by cases h; rfl)⟩
    | ok f =>
      obtain ⟨hok, herr⟩ := parseForm_reads (addrSizeOf cs p.a67) p.ovr f r
      cases hparse : parseForm (addrSizeOf cs p.a67) p.ovr f r with
      | error err =>
        have := (herr err hparse).2
        simp only [hs, List.length_cons] at h
        omega
      | ok a =>
        obtain ⟨-, happ⟩ := hok a.1 a.2 hparse
        constructor
        · simp only [Except.bind, happ e, hparse, List.length_append, Nat.add_sub_add_right]
        · rw [Except.bind, hparse]; nofun
  | (p, []) => simp [hs] at h
  | (p, [b]) => simp [hs] at h

/-! ### The bytes the encoder writes, after any prefixes (R100 to R112) -/

/-- A memory operand with a segment override where it names none. -/
def Mem.orOvr (o : Option Seg) : Mem → Mem
  | .a32 ovr b i d => .a32 (ovr <|> o) b i d
  | .a16 ovr b d => .a16 (ovr <|> o) b d

/-- An r/m operand with a segment override where it is in memory and names none. -/
def RM.orOvr (o : Option Seg) : RM → RM
  | .reg q => .reg q
  | .mem m => .mem (m.orOvr o)

@[simp] theorem Mem.orOvr_none (m : Mem) : m.orOvr none = m := by
  cases m with
  | a32 ovr b i d => cases ovr <;> rfl
  | a16 ovr b d => cases ovr <;> rfl

@[simp] theorem RM.orOvr_none (rm : RM) : rm.orOvr none = rm := by
  cases rm with
  | reg q => rfl
  | mem m => rw [RM.orOvr, Mem.orOvr_none]

/-- The override of a memory operand that may name one, after prefixes that may hold one. -/
theorem Prefixes.withSeg_ovr (p : Prefixes) (m : Mem) : (p.withSeg m.ovr).ovr = (m.orOvr p.ovr).ovr := by
  obtain ⟨o | g, b, i, d⟩ | ⟨o | g, b, d⟩ := m <;> rfl

/-- An override noted is nothing else noted. -/
theorem Prefixes.withSeg_eq (p : Prefixes) (o : Option Seg) : p.withSeg o = { p with ovr := (p.withSeg o).ovr } := by
  cases o <;> rfl

@[simp] theorem Mem.orOvr_size (o : Option Seg) (m : Mem) : (m.orOvr o).size = m.size := by cases m <;> rfl

/-- The override is in no byte after the prefixes. -/
theorem encodeMem_orOvr (form : MemForm) (o : Option Seg) (m : Mem) : encodeMem form (m.orOvr o) = encodeMem form m := by
  cases m with
  | a32 ovr b i d => cases b <;> cases i <;> rfl
  | a16 ovr b d => cases b <;> rfl

theorem Mem.orOvr_wf {m : Mem} (h : m.wf) (o : Option Seg) : (m.orOvr o).wf := by
  cases m with
  | a32 ovr b i d => cases i <;> exact h
  | a16 ovr b d => rfl

/-- F3h is read among the prefixes (R106). -/
theorem scanPrefixes_f3 (f3 : Bool) (bs : List Byte) (p : Prefixes) :
    scanPrefixes ((if f3 then [0xF3#8] else []) ++ bs) p = scanPrefixes bs { p with f3 := p.f3 || f3 } := by
  cases f3
  · simp
  · simp [scanPrefixes, notePrefix]

/-- Bytes that are read, after any prefixes without 67h, as the instruction: the prefixes noted before are kept, an F3h of its own
added, and a segment override from before counts only where the instruction has an operand in memory that names none. -/
def ReadsBack (cs : CodeSize) (bytes : List Byte) (i : Instr) : Prop :=
  ∃ f3 op f, findForm f3 op = some f ∧ ∀ (p : Prefixes) (rest : List Byte), p.a67 = false →
    ∃ o a67 body j, scanPrefixes (bytes ++ rest) p = ({ p with ovr := o, a67 := a67, f3 := p.f3 || f3 }, 0x0F#8 :: op :: body) ∧
      parseForm (addrSizeOf cs a67) o f body = .ok (.instr j, rest) ∧ (p.ovr = none → j = i)

/-- ModR/M of an r/m operand, with what follows it, is read back, the override of the prefixes taken where it names none. -/
theorem encodeRm_readsBack (form : MemForm) (cs : CodeSize) (f3 : Bool) (op : Byte) (r : Reg) {rm : RM} (hw : rm.wf)
    (imm : List Byte) {p : Prefixes} (hp : p.a67 = false) (rest : List Byte) :
    ∃ o a67 modrm body, scanPrefixes (encodeRm form cs f3 op r rm imm ++ rest) p =
        ({ p with ovr := o, a67 := a67, f3 := p.f3 || f3 }, 0x0F#8 :: op :: modrm :: body) ∧ fieldReg modrm = r ∧
      parseRM (addrSizeOf cs a67) o (fieldMod modrm) (fieldRm modrm) body = .ok (rm.orOvr p.ovr, imm ++ rest) := by
  cases rm with
  | reg q =>
    refine ⟨p.ovr, p.a67, packFields 3#2 r q, imm ++ rest, ?_, by simp, by simp [parseRM, RM.orOvr]⟩
    simp only [encodeRm, encodeReg, List.append_assoc, scanPrefixes_f3, List.cons_append, scanPrefixes_opcode]
  | mem m =>
    refine ⟨(m.orOvr p.ovr).ovr, decide (addrSizeOf cs false ≠ m.size), _, (encodeMem form m).2.2 ++ (imm ++ rest), ?_,
      fieldReg_packFields (encodeMem form m).1 r (encodeMem form m).2.1, ?_⟩
    · simp only [encodeRm, List.append_assoc, scanPrefixes_memPrefix, scanPrefixes_f3, List.cons_append, scanPrefixes_opcode]
      rw [Prefixes.withSeg_eq]
      simp only [Prefixes.withSeg_ovr, hp, Bool.false_or]
    · have := parseRM_encodeMem form (m.orOvr p.ovr) (imm ++ rest) (Mem.orOvr_wf hw p.ovr)
      rw [encodeMem_orOvr, Mem.orOvr_size] at this
      rw [addrSizeOf_sizePrefix, fieldMod_packFields, fieldRm_packFields]
      exact this

/-- The parser of a row with a ModR/M byte, from the r/m operand that is read: without an imm8. -/
theorem parseForm_rm {size : AddrSize} {ovr : Option Seg} {f : Form} {modrm : Byte} {body rest : List Byte} {rm : RM}
    (hm : f.hasModRm = true) (hi : f.hasImm = false)
    (h : parseRM size ovr (fieldMod modrm) (fieldRm modrm) body = .ok (rm, rest)) :
    parseForm size ovr f (modrm :: body) = .ok (f.build size ovr (fieldReg modrm) rm 0#8, rest) := by
  simp only [parseForm, hm, hi, h, if_true, Bool.false_eq_true, if_false]
  rfl

/-- The parser of a row with a ModR/M byte, from the r/m operand that is read: with an imm8. -/
theorem parseForm_rmImm {size : AddrSize} {ovr : Option Seg} {f : Form} {modrm : Byte} {body rest : List Byte} {rm : RM} {imm : Byte}
    (hm : f.hasModRm = true) (hi : f.hasImm = true)
    (h : parseRM size ovr (fieldMod modrm) (fieldRm modrm) body = .ok (rm, imm :: rest)) :
    parseForm size ovr f (modrm :: body) = .ok (f.build size ovr (fieldReg modrm) rm imm, rest) := by
  simp only [parseForm, hm, hi, h, if_true]
  rfl

/-- A row without an imm8 whose r/m operand makes the instruction. -/
theorem readsBack_form {form : MemForm} {cs : CodeSize} {f3 : Bool} {op : Byte} {f : Form} {r : Reg} {rm : RM} {i : Instr}
    (hf : findForm f3 op = some f) (hm : f.hasModRm = true) (hi : f.hasImm = false) (hw : rm.wf)
    (hb : ∀ size ovr o, ∃ j, f.build size ovr r (rm.orOvr o) 0#8 = .instr j ∧ (o = none → j = i)) :
    ReadsBack cs (encodeRm form cs f3 op r rm []) i := by
  refine ⟨f3, op, f, hf, fun p rest hp => ?_⟩
  obtain ⟨o, a67, modrm, body, hs, rfl, hparse⟩ := encodeRm_readsBack form cs f3 op r hw [] hp rest
  obtain ⟨j, hj, hji⟩ := hb (addrSizeOf cs a67) o p.ovr
  exact ⟨o, a67, modrm :: body, j, hs, by rw [parseForm_rm hm hi hparse, hj]; rfl, hji⟩

/-- A row with an imm8 whose r/m operand makes the instruction. -/
theorem readsBack_formImm {form : MemForm} {cs : CodeSize} {f3 : Bool} {op : Byte} {f : Form} {r : Reg} {rm : RM} {imm : Byte}
    {i : Instr} (hf : findForm f3 op = some f) (hm : f.hasModRm = true) (hi : f.hasImm = true) (hw : rm.wf)
    (hb : ∀ size ovr o, ∃ j, f.build size ovr r (rm.orOvr o) imm = .instr j ∧ (o = none → j = i)) :
    ReadsBack cs (encodeRm form cs f3 op r rm [imm]) i := by
  refine ⟨f3, op, f, hf, fun p rest hp => ?_⟩
  obtain ⟨o, a67, modrm, body, hs, rfl, hparse⟩ := encodeRm_readsBack form cs f3 op r hw [imm] hp rest
  obtain ⟨j, hj, hji⟩ := hb (addrSizeOf cs a67) o p.ovr
  exact ⟨o, a67, modrm :: body, j, hs, by rw [parseForm_rmImm hm hi hparse, hj]; rfl, hji⟩

section
variable {form : MemForm} {cs : CodeSize} {f3 : Bool} {op : Byte} {f : Form} {r q : Reg} {rm : RM} {m : Mem} {imm : Byte} {i : Instr}

/-- A row with any r/m operand. -/
theorem readsBack_regRm {mk : Reg → RM → Instr} (hf : findForm f3 op = some (.regRm mk)) (hw : rm.wf) :
    ReadsBack cs (encodeRm form cs f3 op r rm []) (mk r rm) :=
  readsBack_form hf rfl rfl hw fun _ _ o => ⟨mk r (rm.orOvr o), rfl, by rintro rfl; rw [RM.orOvr_none]⟩

/-- A row with any r/m operand and an imm8. -/
theorem readsBack_regRmImm {mk : Reg → RM → Byte → Instr} (hf : findForm f3 op = some (.regRmImm mk)) (hw : rm.wf) :
    ReadsBack cs (encodeRm form cs f3 op r rm [imm]) (mk r rm imm) :=
  readsBack_formImm hf rfl rfl hw fun _ _ o => ⟨mk r (rm.orOvr o) imm, rfl, by rintro rfl; rw [RM.orOvr_none]⟩

/-- A row that makes an instruction of its memory operand. -/
theorem readsBack_mem {mk : Mem → Instr} (hf : findForm f3 op = some f) (hm : f.hasModRm = true) (hi : f.hasImm = false) (hw : m.wf)
    (hb : ∀ size ovr m, f.build size ovr r (.mem m) 0#8 = .instr (mk m)) :
    ReadsBack cs (encodeRm form cs f3 op r (.mem m) []) (mk m) :=
  readsBack_form hf hm hi hw fun _ _ o => ⟨mk (m.orOvr o), hb _ _ _, by rintro rfl; rw [Mem.orOvr_none]⟩

/-- A row that makes an instruction of two registers. -/
theorem readsBack_reg (hf : findForm false op = some f) (hm : f.hasModRm = true) (hi : f.hasImm = false)
    (hb : ∀ size ovr, f.build size ovr r (.reg q) 0#8 = .instr i) : ReadsBack cs (encodeReg op r q []) i :=
  readsBack_form (form := canonicalForm) (f3 := false) (rm := .reg q) hf hm hi rfl fun _ _ _ => ⟨i, hb _ _, fun _ => rfl⟩

/-- A row that makes an instruction of two registers and an imm8. -/
theorem readsBack_regImm (hf : findForm false op = some f) (hm : f.hasModRm = true) (hi : f.hasImm = true)
    (hb : ∀ size ovr, f.build size ovr r (.reg q) imm = .instr i) : ReadsBack cs (encodeReg op r q [imm]) i :=
  readsBack_formImm (form := canonicalForm) (f3 := false) (rm := .reg q) hf hm hi rfl fun _ _ _ => ⟨i, hb _ _, fun _ => rfl⟩

/-- A row without ModR/M. -/
theorem readsBack_bare (hf : findForm false op = some f) (hm : f.hasModRm = false)
    (hb : ∀ size ovr, f.build size ovr 0#3 (.reg 0#3) 0#8 = .instr i) : ReadsBack cs [0x0F#8, op] i := by
  refine ⟨false, op, f, hf, fun p rest hp => ⟨p.ovr, p.a67, rest, i, ?_, ?_, fun _ => rfl⟩⟩
  · simp only [List.cons_append, List.nil_append, scanPrefixes_opcode, Bool.or_false]
  · simp only [parseForm, hm, Bool.false_eq_true, if_false, hb]
    rfl

end

/-- MASKMOVQ, whose override and address size are operands of its own (48 R350). -/
theorem readsBack_maskmovq (cs : CodeSize) (r q : Reg) (ovr : Option Seg) (size : AddrSize) :
    ReadsBack cs (segPrefix ovr ++ sizePrefix cs size ++ encodeReg 0xF7#8 r q []) (.maskmovq r q ovr size) := by
  refine ⟨false, 0xF7#8, .mask .maskmovq, rfl, fun p rest hp => ?_⟩
  refine ⟨(p.withSeg ovr).ovr, decide (addrSizeOf cs false ≠ size), packFields 3#2 r q :: rest,
    .maskmovq r q (p.withSeg ovr).ovr size, ?_, ?_, fun ho => ?_⟩
  · simp only [List.append_assoc, scanPrefixes_segPrefix, scanPrefixes_sizePrefix, encodeReg, List.cons_append, List.nil_append,
      scanPrefixes_opcode]
    rw [Prefixes.withSeg_eq]
    simp only [hp, Bool.false_or, Bool.or_false]
  · have hrm : parseRM size (p.withSeg ovr).ovr (fieldMod (packFields 3#2 r q)) (fieldRm (packFields 3#2 r q)) rest =
        .ok (.reg q, rest) := by simp [parseRM]
    rw [addrSizeOf_sizePrefix, parseForm_rm rfl rfl hrm, fieldReg_packFields]
    rfl
  · cases ovr with
    | none => rw [Prefixes.withSeg, ho]
    | some g => rfl

/-- The bytes the encoder writes for a well-formed instruction are read back, in every form of its memory operand: row by row of the
opcode maps, by what follows the opcode (R113 to R119). -/
theorem encodeAs_readsBack (form : MemForm) (cs : CodeSize) {i : Instr} (hw : i.wf) : ReadsBack cs (encodeAs form cs i) i := by
  cases i with
  | punpcklbw | punpcklwd | punpckldq | packsswb | pcmpgtb | pcmpgtw | pcmpgtd | packuswb | punpckhbw | punpckhwd | punpckhdq
  | packssdw | movdLoad | movqLoad | pcmpeqb | pcmpeqw | pcmpeqd | movdStore | movqStore | psrlw | psrld | psrlq | pmullw
  | psubusb | psubusw | pand | paddusb | paddusw | pandn | psraw | psrad | pmulhw | psubsb | psubsw | por | paddsb | paddsw | pxor
  | psllw | pslld | psllq | pmaddwd | psubb | psubw | psubd | paddb | paddw | paddd | pminub | pmaxub | pavgb | pavgw | pmulhuw
  | pminsw | pmaxsw | psadbw | movupsLoad | movupsStore | movssLoad | movssStore | unpcklps | unpckhps | movapsLoad | movapsStore
  | cvtpi2ps | cvtsi2ss | cvttps2pi | cvttss2si | cvtps2pi | cvtss2si | ucomiss | comiss | sqrtps | sqrtss | rsqrtps | rsqrtss
  | rcpps | rcpss | andps | andnps | orps | xorps | addps | addss | mulps | mulss | subps | subss | minps | minss | divps | divss
  | maxps | maxss => exact readsBack_regRm rfl hw
  | pshufw | pinsrw | cmpps | cmpss | shufps => exact readsBack_regRmImm rfl hw
  | movntq | movlpsLoad | movlpsStore | movhpsLoad | movhpsStore | movntps | prefetchnta | prefetcht0 | prefetcht1 | prefetcht2
  | fxsave | fxrstor | ldmxcsr | stmxcsr => exact readsBack_mem rfl rfl rfl hw fun _ _ _ => rfl
  | pmovmskb | movhlps | movlhps | movmskps => exact readsBack_reg rfl rfl rfl fun _ _ => rfl
  | psrlwImm | psrawImm | psllwImm | psrldImm | psradImm | pslldImm | psrlqImm | psllqImm | pextrw =>
    exact readsBack_regImm rfl rfl rfl fun _ _ => rfl
  | maskmovq r q ovr size => exact readsBack_maskmovq cs r q ovr size
  | emms | wrmsr | rdtsc | rdmsr | cpuid => exact readsBack_bare rfl rfl fun _ _ => rfl
  | sfence => exact readsBack_reg (r := 7#3) (q := 0#3) (op := 0xAE#8) rfl rfl rfl fun _ _ => rfl

/-- After segment overrides, the bytes of an instruction decode, to an instruction, with the length of all of them. -/
theorem decode_segs_encodeAs (form : MemForm) (cs : CodeSize) {i : Instr} (hw : i.wf) {ovr : List Byte}
    (ho : ∀ b ∈ ovr, b ∈ [0x26#8, 0x2E#8, 0x36#8, 0x3E#8, 0x64#8, 0x65#8]) (rest : List Byte) :
    ∃ j, decode cs (ovr ++ encodeAs form cs i ++ rest) = .ok (.instr j, (ovr ++ encodeAs form cs i).length) := by
  obtain ⟨f3, op, f, hf, hread⟩ := encodeAs_readsBack form cs hw
  obtain ⟨g, hg⟩ := scanPrefixes_segs ho noPrefixes
  obtain ⟨o, a67, body, j, hs, hparse, -⟩ := hread { noPrefixes with ovr := g } rest rfl
  rw [← hg, ← List.append_assoc] at hs
  refine ⟨j, ?_⟩
  rw [decode_eq_row hs, opcodeRow_ok (by simpa [noPrefixes] using hf) rfl]
  simp only [Except.bind, hparse, noPrefixes, Bool.false_eq_true, if_false, List.length_append, Nat.add_sub_cancel]

end Sys2Proof
end

section
/-! PROOFS. The fetch and the stops of a step (10_state R24; 20_memory R92; 30_encoding R104, R106, R120). -/

namespace Sys2Proof.Machine

/-! ### The window of a fetch -/

theorem inCode_iff {p : Platform} {a : Addr} :
    inCode p a = true ↔ p.codeBase.toNat ≤ a.toNat ∧ a.toNat < p.codeBase.toNat + p.codeLen := by
  simp [inCode]

/-- Outside the program nothing is left of it. -/
theorem programLeft_of_not_inCode {s : State} (h : inCode s.plat s.fetchAddr = false) : s.programLeft = 0 := by
  simp [State.programLeft, h]

/-- Inside the program, what is left of it ends with the program, and with the address space. -/
theorem programLeft_bounds {s : State} {k : Nat} (h : k < s.programLeft) :
    inCode s.plat s.fetchAddr = true ∧ s.fetchAddr.toNat + k < 2 ^ 32 ∧
      s.fetchAddr.toNat + k < s.plat.codeBase.toNat + s.plat.codeLen := by
  unfold State.programLeft at h
  split at h
  · next hc => exact ⟨hc, by omega, by omega⟩
  · omega

/-- The address of byte k of what is left of the program does not wrap. -/
theorem fetchAddr_add_toNat {s : State} {k : Nat} (h : k < s.programLeft) :
    (s.fetchAddr + BitVec.ofNat 32 k).toNat = s.fetchAddr.toNat + k := by
  obtain ⟨-, hk, -⟩ := programLeft_bounds h
  rw [BitVec.toNat_add, BitVec.toNat_ofNat, Nat.mod_eq_of_lt (a := k) (by omega), Nat.mod_eq_of_lt hk]

/-- What is left of the program is program. -/
theorem inCode_fetchAddr_add {s : State} {k : Nat} (h : k < s.programLeft) :
    inCode s.plat (s.fetchAddr + BitVec.ofNat 32 k) = true := by
  obtain ⟨hc, -, hk⟩ := programLeft_bounds h
  obtain ⟨hb, -⟩ := inCode_iff.mp hc
  rw [inCode_iff, fetchAddr_add_toNat h]
  omega

theorem fetchCount_le (s : State) : s.fetchCount ≤ s.programLeft := Nat.min_le_left _ _

theorem Memory.readBytes_getElem (m : Memory) (a : Addr) (n k : Nat) (h : k < (m.readBytes a n).length) :
    (m.readBytes a n)[k] = m.read (a + BitVec.ofNat 32 k).toNat := by
  have hk : k < (addresses a n).length := by simpa [Memory.readBytes_eq] using h
  simp only [Memory.readBytes_eq, List.getElem_map, addresses_get a n k hk]

/-- More bytes read are the fewer ones, and then more. -/
theorem Memory.readBytes_prefix (m : Memory) (a : Addr) {n k : Nat} (h : n ≤ k) : ∃ e, m.readBytes a k = m.readBytes a n ++ e := by
  induction n generalizing a k with
  | zero => exact ⟨_, rfl⟩
  | succ n ih =>
    obtain ⟨k, rfl⟩ : ∃ k', k = k' + 1 := ⟨k - 1, by omega⟩
    obtain ⟨e, he⟩ := ih (a + 1#32) (k := k) (by omega)
    exact ⟨e, by simp only [Memory.readBytes, he, List.cons_append]⟩

/-- Where the fetch ends before the program does, it has all that an instruction can have after its prefixes (R100, R104). -/
theorem fetchBytes_afterPrefixes {s : State} (h : s.fetchCount < s.programLeft) :
    9 ≤ (scanPrefixes s.fetchBytes noPrefixes).2.length := by
  have hlen : s.fetchBytes.length = s.fetchCount := Memory.readBytes_length ..
  have hscan := scanPrefixes_length s.fetchBytes noPrefixes (fun k => s.mem.read (s.fetchAddr.toNat + k)) 0 fun j hj => by
    rw [hlen] at hj
    simp only [State.fetchBytes, Memory.readBytes_getElem, fetchAddr_add_toNat (hj.trans h), Nat.zero_add]
  have hmono := prefixRun_mono (fun k => s.mem.read (s.fetchAddr.toNat + k)) h.le 0
  have hcount : s.fetchCount = prefixRun (fun k => s.mem.read (s.fetchAddr.toNat + k)) s.programLeft 0 + 9 := by
    have : s.fetchCount = min _ _ := rfl
    unfold maxAfterPrefixes at this
    omega
  rw [hlen] at hscan
  omega

/-- Fetching all that is left of the program would decode the same. -/
theorem decode_fetchBytes (s : State) :
    decode s.plat.codeSize s.fetchBytes = decode s.plat.codeSize (s.mem.readBytes s.fetchAddr s.programLeft) := by
  obtain h | h := (fetchCount_le s).eq_or_lt
  · rw [State.fetchBytes, h]
  · obtain ⟨e, he⟩ := Memory.readBytes_prefix s.mem s.fetchAddr h.le
    rw [he]
    exact (decode_append (fetchBytes_afterPrefixes h) e).1.symm

/-- Bytes run out only where the program ends. -/
theorem fetchCount_of_outOfBytes {s : State} (h : decode s.plat.codeSize s.fetchBytes = .error .outOfBytes) :
    s.fetchCount = s.programLeft := by
  obtain he | hl := (fetchCount_le s).eq_or_lt
  · exact he
  · exact absurd h (decode_append (fetchBytes_afterPrefixes hl) []).2

/-! ### The stops -/

/-- Bytes without a decoding stop the step by name. -/
theorem step_of_decode_error {s : State} {e : DecodeError} (h : decode s.plat.codeSize s.fetchBytes = .error e) :
    step s = Effect.outcome (decodeStop e s) := by
  simp only [step, h]

/-- An instruction cut off is refused: past the end of the address space, or of the program (10_state R24; 20_memory R92). -/
theorem step_of_outOfBytes {s : State} (h : decode s.plat.codeSize s.fetchBytes = .error .outOfBytes) :
    step s = .refused (if s.fetchAddr.toNat + s.programLeft = 2 ^ 32 then .fetchPastTop else .fetchOutsideCode) := by
  rw [step_of_decode_error h, decodeStop, fetchOverrun, fetchCount_of_outOfBytes h]
  split
  · rfl
  · rfl

/-- A fetch outside the program is refused (20_memory R92). -/
theorem step_outside_code {s : State} (h : inCode s.plat s.fetchAddr = false) : step s = .refused .fetchOutsideCode := by
  have hleft := programLeft_of_not_inCode h
  have hbytes : s.fetchBytes = [] := List.length_eq_zero_iff.mp (by
    have := fetchCount_le s
    rw [State.fetchBytes, Memory.readBytes_length]
    omega)
  have hlt := s.fetchAddr.isLt
  rw [step_of_outOfBytes (by rw [hbytes]; rfl), hleft, if_neg (by omega)]

/-- Whatever decodes with a length above 15 raises #GP(0) (30_encoding R104; log 12). -/
theorem step_of_too_long {s : State} {d : Decoded} {len : Nat} (h : decode s.plat.codeSize s.fetchBytes = .ok (d, len))
    (hl : 15 < len) : step s = .fault (.gp s) := by
  have hc : lengthCheck len s = raise .gp s := if_pos hl
  simp only [step, h, hc]
  rfl

/-- Settles O5: the fetch has all that an instruction can have unless the program ends first (`fetchBytes_afterPrefixes`), the decoder
looks no further (`decode_append`), and the bytes of an instruction decode after any segment overrides (`decode_segs_encodeAs`). -/
theorem stepStopsOnItsBytes : Obligations.StepStopsOnItsBytes := by
  refine ⟨fun s => ⟨Memory.readBytes_length .., fetchCount_le s, fun k hk => ?_, decode_fetchBytes s⟩,
    fun s => ⟨step_outside_code, step_of_outOfBytes, fun h => ?_, fun h => ?_, fun d len h hl => step_of_too_long h hl⟩,
    fun cs pre b rest hp hb => ?_, fun s form i ovr hw ho hl hpre => ?_⟩
  · have hlen : k < s.fetchBytes.length := by rwa [State.fetchBytes, Memory.readBytes_length]
    exact ⟨inCode_fetchAddr_add (hk.trans_le (fetchCount_le s)),
      (List.getElem?_eq_getElem hlen).trans (congrArg some (Memory.readBytes_getElem _ _ _ _ hlen))⟩
  · rw [step_of_decode_error h]; rfl
  · rw [step_of_decode_error h]; rfl
  · exact decode_notInstruction (scanPrefixes_until hp hb noPrefixes) (by rintro rfl; simp at hb)
  · obtain ⟨rest, hrest⟩ := hpre
    obtain ⟨j, hj⟩ := decode_segs_encodeAs form s.plat.codeSize hw ho rest
    rw [hrest] at hj
    exact step_of_too_long hj hl

/-- Settles O10: no instruction writes the program counter (`runDecoded_pc`), and a decoded length is at least 1. -/
theorem stepFallsThrough : Obligations.StepFallsThrough := by
  intro s t h
  obtain ⟨d, len, u, hd, hl, hu, rfl⟩ := step_next h
  exact ⟨d, len, hd, decode_length_pos hd, hl, by rw [State.advance_pc, runDecoded_pc hu]⟩

end Sys2Proof.Machine
end

section
/-! PROOFS. What an instruction that completes does to memory, said once for all 133 of them (`exec_keepsShut`): a byte that no store
reaches stays as it is (20_memory R76, R78, R92); and from it, that no step changes the program. -/

namespace Sys2Proof.Machine

/-- Every byte that a store does not reach (one that `MemAdmit` shuts out, a device's, the program's) is as before. -/
def KeepsShut (s t : State) : Prop :=
  ∀ a : Addr, byteOpen s.plat .write a = false → t.mem.read a.toNat = s.mem.read a.toNat

/-- An unchanged memory. -/
theorem KeepsShut.of_mem_eq {s t : State} (h : t.mem = s.mem) : KeepsShut s t := fun _ _ => by rw [h]

/-- A shut byte is none of those that a store reaches. -/
theorem not_mem_of_all_open {p : Platform} {as : List Addr} {a : Addr} (h : as.all (byteOpen p .write) = true)
    (ha : byteOpen p .write a = false) : a ∉ as := fun hmem => by
  rw [List.all_eq_true.mp h a hmem] at ha
  cases ha

/-- A byte string written where a store reaches every byte. -/
theorem KeepsShut.writeBytes {s t : State} {a : Addr} {bs : List Byte} (ho : accessible .write s a bs.length = true)
    (ht : t.mem = s.mem.writeBytes a bs) : KeepsShut s t := fun b hb => by
  rw [ht, Memory.read_writeBytes_ne _ (not_mem_of_all_open ho hb)]

/-- Single bytes written where a store reaches every one. -/
theorem KeepsShut.writeEach {s t : State} {ws : List (Addr × Byte)} (ho : (ws.map (·.1)).all (byteOpen s.plat .write) = true)
    (ht : t.mem = s.mem.writeEach ws) : KeepsShut s t := fun b hb => by
  rw [ht, Memory.read_writeEach_ne _ (not_mem_of_all_open ho hb)]

/-! ### Effects, part by part -/

/-- If the effect completes, its state has the shut bytes of `s`. -/
def ShutKept (s : State) (e : Effect) : Prop := ∀ t, e = .ok t → KeepsShut s t

theorem KeepsShut.of_next {s t : State} {e : Effect} (ht : e.outcome = .next t) (h : ShutKept s e) : KeepsShut s t :=
  h t (outcome_next.mp ht)

theorem ShutKept.ok {s t : State} (h : KeepsShut s t) : ShutKept s (.ok t) := fun _ e => by cases e; exact h

/-- What the effect ends in has the memory of `s` itself. -/
theorem ShutKept.sameMem {s t : State} (h : t.mem = s.mem) : ShutKept s (.ok t) := .ok (.of_mem_eq h)

theorem ShutKept.error {s : State} (p : Stop) : ShutKept s (.error p) := nofun

/-- Of a sequence it is enough to look at what comes after a first part that completed. -/
theorem ShutKept.bind {α : Type} {s : State} {x : Except Stop α} {f : α → Effect} (h : ∀ a, x = .ok a → ShutKept s (f a)) :
    ShutKept s (x >>= f) := fun t ht => by
  obtain ⟨a, ha, hf⟩ := bind_ok.mp ht
  exact h a ha t hf

/-- A last part that leaves memory alone. -/
theorem ShutKept.then {s : State} {e : Effect} {f : State → State} (h : ShutKept s e) (hf : ∀ u, (f u).mem = u.mem) :
    ShutKept s (e >>= fun u => pure (f u)) := .bind fun u hu => .ok fun a ha => by
  rw [hf]
  exact h u hu a ha

/-! ### The FXSAVE area is 512 bytes (48 R340) -/

@[simp] theorem openBytes_length (draw off n : Nat) : (openBytes draw off n).length = n := by
  induction n generalizing off with
  | zero => rfl
  | succ n ih => simp [openBytes, ih]

@[simp] theorem stackSlot_length (s : State) (j : Nat) : (stackSlot s j).length = 16 := by simp [stackSlot]

@[simp] theorem xmmSlot_length (s : State) (j : Nat) : (xmmSlot s j).length = 16 := by
  unfold xmmSlot
  split <;> simp

@[simp] theorem mxcsrField_length (s : State) : (mxcsrField s).length = 4 := by
  unfold mxcsrField
  split <;> simp

@[simp] theorem imageHead_length (s : State) : (imageHead s).length = 32 := by simp [imageHead]

@[simp] theorem fxsaveImage_length (s : State) : (fxsaveImage s).length = 512 := by simp [fxsaveImage, List.length_flatMap]

/-! ### Stores -/

theorem rmWrite_shutKept {w n : Nat} {al : Bool} {f : State → Reg → BitVec w → State} {s : State} {rm : RM} {v : BitVec w}
    (hf : ∀ q, (f s q v).mem = s.mem) : ShutKept s (rmWrite n al f s rm v) := fun t h => by
  cases rm with
  | reg q => cases h; exact .of_mem_eq (hf q)
  | mem m =>
    obtain ⟨⟨-, ho⟩, rfl⟩ := store_ok.mp h
    exact .writeBytes (by rwa [valueBytes_length]) rfl

theorem mmxStore_shutKept {w n : Nat} {since : Since} {f : State → Reg → BitVec w → State} {s : State} {rm : RM} {v : BitVec w}
    (hf : ∀ q, (f s q v).mem = s.mem) : ShutKept s (mmxStore since n f s rm v) :=
  .bind fun _ _ => .then (rmWrite_shutKept hf) fun _ => rfl

theorem xmmStore_shutKept {w n : Nat} {al : Bool} {f : State → Reg → BitVec w → State} {s : State} {rm : RM} {v : BitVec w}
    (hf : ∀ q, (f s q v).mem = s.mem) : ShutKept s (xmmStore n al f s rm v) :=
  .bind fun _ _ => rmWrite_shutKept hf

theorem maskmovq_keepsShut {r q : Reg} {ovr : Option Seg} {size : AddrSize} {s t : State}
    (h : execMaskmovq r q ovr size s = .next t) : KeepsShut s t := by
  refine .of_next h (.bind fun _ _ => .bind fun _ ho => .ok (.writeEach ?_ rfl))
  rw [List.map_map]
  exact checkBytes_ok.mp ho

theorem fxsave_keepsShut {m : Mem} {s t : State} (h : execFxsave m s = .next t) : KeepsShut s t := by
  simp only [execFxsave, outcome_next, bind_ok, memCheck_ok, pure_ok, Except.ok.injEq] at h
  obtain ⟨-, -, -, ⟨-, ho⟩, rfl⟩ := h
  have hl := fxsaveImage_length s
  generalize fxsaveImage s = image at hl ⊢
  exact .writeBytes (by rwa [hl]) rfl

/-! ### What writes registers only -/

theorem mmxBinary_shutKept {w : Nat} {since : Since} {read : State → RM → Except Stop (BitVec w)} {f : Qword → BitVec w → Qword}
    {s : State} {r : Reg} {rm : RM} : ShutKept s (mmxBinary since read f s r rm) :=
  .bind fun _ _ => .bind fun _ _ => .sameMem rfl

theorem mmxUnary_shutKept {since : Since} {f : Qword → Qword} {s : State} {r : Reg} : ShutKept s (mmxUnary since f s r) :=
  .bind fun _ _ => .sameMem rfl

theorem mmxToGpr_shutKept {since : Since} {f : Qword → Dword} {s : State} {r q : Reg} : ShutKept s (mmxToGpr since f s r q) :=
  .bind fun _ _ => .sameMem rfl

theorem xmmBinary_shutKept {w : Nat} {read : State → RM → Except Stop (BitVec w)} {f : Xword → BitVec w → Xword} {s : State}
    {r : Reg} {rm : RM} : ShutKept s (xmmBinary read f s r rm) :=
  .bind fun _ _ => .bind fun _ _ => .sameMem rfl

/-- A numeric result, written by an operation that leaves memory alone. -/
theorem finish_shutKept {α : Type} {s : State} {c : Signalled α} {write : State → α → State}
    (hw : ∀ u v, (write u v).mem = u.mem) : ShutKept s (finish s c write) := fun t h => by
  obtain ⟨-, -, rfl⟩ := finish_ok.mp h
  exact .of_mem_eq (hw _ _)

theorem xmmNumeric_shutKept {w : Nat} {read : State → RM → Except Stop (BitVec w)} {compute : Xword → BitVec w → Signalled Xword}
    {s : State} {r : Reg} {rm : RM} : ShutKept s (xmmNumeric read compute s r rm) :=
  .bind fun _ _ => .bind fun _ _ => finish_shutKept fun _ _ => rfl

theorem xmmCompare_shutKept {signals : Dword → Dword → FpFlags} {s : State} {r : Reg} {rm : RM} :
    ShutKept s (xmmCompare signals s r rm) :=
  .bind fun _ _ => .bind fun _ _ => finish_shutKept fun _ _ => rfl

theorem xmmToGpr_shutKept {f : Dword → Signalled Dword} {s : State} {r : Reg} {rm : RM} : ShutKept s (xmmToGpr f s r rm) :=
  .bind fun _ _ => .bind fun _ _ => finish_shutKept fun _ _ => rfl

theorem xmmToMmx_shutKept {f : Dword → Signalled Dword} {s : State} {r : Reg} {rm : RM} : ShutKept s (xmmToMmx f s r rm) :=
  .bind fun _ _ => .bind fun _ _ => finish_shutKept fun _ _ => rfl

theorem cvtpi2ps_keepsShut {r : Reg} {rm : RM} {s t : State} (h : execCvtpi2ps r rm s = .next t) : KeepsShut s t :=
  .of_next h (.bind fun _ _ => .bind fun _ _ => finish_shutKept fun _ _ => rfl)

theorem hint_shutKept {s : State} : ShutKept s (hint s) := .bind fun _ _ => .sameMem rfl

theorem fxrstor_keepsShut {m : Mem} {s t : State} (h : execFxrstor m s = .next t) : KeepsShut s t := by
  refine .of_next h (.bind fun _ _ => .bind fun _ _ => .bind fun _ _ => .sameMem ?_)
  unfold loadXmm
  split
  · rfl
  · rfl

theorem rdmsr_keepsShut {s t : State} (h : execRdmsr s = .next t) : KeepsShut s t := by
  refine .of_next h (.bind fun _ _ => ?_)
  split
  · exact .sameMem rfl
  · exact .sameMem rfl

theorem wrmsr_keepsShut {s t : State} (h : execWrmsr s = .next t) : KeepsShut s t := by
  refine .of_next h (.bind fun _ _ => ?_)
  split
  · exact .sameMem rfl
  · exact .error _

/-! ### Every instruction -/

/-- Every instruction that completes leaves each byte that no store reaches as it was, by the shape its meaning has. -/
theorem exec_keepsShut {i : Instr} {s t : State} (h : exec i s = .next t) : KeepsShut s t := by
  cases i with
  | punpcklbw | punpcklwd | punpckldq | packsswb | pcmpgtb | pcmpgtw | pcmpgtd | packuswb | punpckhbw | punpckhwd | punpckhdq
  | packssdw | movdLoad | movqLoad | pcmpeqb | pcmpeqw | pcmpeqd | psrlw | psrld | psrlq | pmullw | psubusb | psubusw | pand
  | paddusb | paddusw | pandn | psraw | psrad | pmulhw | psubsb | psubsw | por | paddsb | paddsw | pxor | psllw | pslld | psllq
  | pmaddwd | psubb | psubw | psubd | paddb | paddw | paddd | pshufw | pinsrw | pminub | pmaxub | pavgb | pavgw | pmulhuw
  | pminsw | pmaxsw | psadbw => exact .of_next h mmxBinary_shutKept
  | psrlwImm | psrawImm | psllwImm | psrldImm | psradImm | pslldImm | psrlqImm | psllqImm => exact .of_next h mmxUnary_shutKept
  | pextrw | pmovmskb => exact .of_next h mmxToGpr_shutKept
  | movdStore | movqStore | movntq => exact .of_next h (mmxStore_shutKept fun _ => rfl)
  | maskmovq => exact maskmovq_keepsShut h
  | movupsLoad | movssLoad | movlpsLoad | movhlps | unpcklps | unpckhps | movhpsLoad | movlhps | movapsLoad | rsqrtps | rsqrtss
  | rcpps | rcpss | andps | andnps | orps | xorps | shufps => exact .of_next h xmmBinary_shutKept
  | movupsStore | movssStore | movlpsStore | movhpsStore | movapsStore | movntps | stmxcsr =>
    exact .of_next h (xmmStore_shutKept fun _ => rfl)
  | cvtsi2ss | sqrtps | sqrtss | addps | addss | mulps | mulss | subps | subss | minps | minss | maxps | maxss | cmpps | cmpss =>
    exact .of_next h xmmNumeric_shutKept
  | divps | divss => exact .of_next h (xmmNumeric_shutKept.then fun _ => rfl)
  | comiss | ucomiss => exact .of_next h xmmCompare_shutKept
  | cvttss2si | cvtss2si => exact .of_next h xmmToGpr_shutKept
  | cvttps2pi | cvtps2pi => exact .of_next h xmmToMmx_shutKept
  | cvtpi2ps => exact cvtpi2ps_keepsShut h
  | emms | movmskps | rdtsc => exact .of_next h (.bind fun _ _ => .sameMem rfl)
  | prefetchnta | prefetcht0 | prefetcht1 | prefetcht2 | sfence => exact .of_next h hint_shutKept
  | fxsave => exact fxsave_keepsShut h
  | fxrstor => exact fxrstor_keepsShut h
  | ldmxcsr => exact .of_next h (.bind fun _ _ => .bind fun _ _ => .bind fun _ _ => .sameMem rfl)
  | wrmsr => exact wrmsr_keepsShut h
  | rdmsr => exact rdmsr_keepsShut h
  | cpuid => cases h; exact .of_mem_eq rfl

/-! ### The program -/

/-- The bytes of the program are shut (20_memory R92). -/
theorem byteOpen_write_of_inCode {p : Platform} {a : Addr} (h : inCode p a = true) : byteOpen p .write a = false := by
  simp [byteOpen, h]

theorem runDecoded_keepsShut {d : Decoded} {s u : State} (h : runDecoded d s = .next u) : KeepsShut s u := by
  cases d with
  | instr i => exact exec_keepsShut h
  | reservedHint => exact .of_next h hint_shutKept
  | invalidForm => cases h
  | locked => cases h

/-- Settles O9: the bytes of the program are among those that no store reaches (`exec_keepsShut`). -/
theorem stepKeepsTheProgramBytes : Obligations.StepKeepsTheProgramBytes := by
  intro s t h a ha
  obtain ⟨d, len, u, -, -, hu, rfl⟩ := step_next h
  exact runDecoded_keepsShut hu a (byteOpen_write_of_inCode ha)

end Sys2Proof.Machine
end

section
/-! PROOFS. Memory operands: an instruction whose earlier checks pass stops where the checks of its access stop, said once for all of them
(`exec_stops_at_access`); then which byte those checks name (20_memory R73, R75, R76, R78, R92; 48 R350; 60_exceptions R380). -/

namespace Sys2Proof.Machine

/-! ### An instruction stops where its access does -/

/-- The checks of an access (20_memory R75, R76, R78, R92). -/
def MemAccess.check (x : MemAccess) (s : State) : Except Stop Unit := memCheck x.acc x.aligned s (s.lin x.mem) x.bytes

theorem stops_first {α β : Type} {x : Except Stop α} {f : α → Except Stop β} {p : Stop} (h : x = .error p) :
    (x >>= f) = .error p := bind_error.mpr (.inl h)

theorem stops_after {α : Type} {x : Except Stop Unit} {f : Unit → Except Stop α} {p : Stop} (h : x = .ok ())
    (hf : f () = .error p) : (x >>= f) = .error p := bind_error.mpr (.inr ⟨(), h, hf⟩)

section
variable {s : State} {x : MemAccess} {p : Stop} {r : Reg} {rm : RM} {w n : Nat} {al : Bool} {since : Since}
  {read : State → RM → Except Stop (BitVec w)}

theorem rmRead_stops {f : Reg → BitVec w} (hx : rmAccess .read n al rm = some x) (hp : x.check s = .error p) :
    rmRead w n al f s rm = .error p := by
  cases rm with
  | reg q => cases hx
  | mem m => cases hx; exact stops_first hp

theorem rmWrite_stops {f : State → Reg → BitVec w → State} {v : BitVec w} (hx : rmAccess .write n al rm = some x)
    (hp : x.check s = .error p) : rmWrite n al f s rm v = .error p := by
  cases rm with
  | reg q => cases hx
  | mem m => cases hx; exact stops_first hp

theorem mmxBinary_stops {f : Qword → BitVec w → Qword} (hc : mmxReady since s = true) (hr : read s rm = .error p) :
    mmxBinary since read f s r rm = .error p := stops_after (mmxCheck_ok.mpr hc) (stops_first hr)

theorem mmxStore_stops {f : State → Reg → BitVec w → State} {v : BitVec w} (hc : mmxReady since s = true)
    (hw : rmWrite n false f s rm v = .error p) : mmxStore since n f s rm v = .error p :=
  stops_after (mmxCheck_ok.mpr hc) (stops_first hw)

theorem xmmBinary_stops {f : Xword → BitVec w → Xword} (hc : xmmReady s = true) (hr : read s rm = .error p) :
    xmmBinary read f s r rm = .error p := stops_after (xmmCheck_ok.mpr hc) (stops_first hr)

theorem xmmStore_stops {f : State → Reg → BitVec w → State} {v : BitVec w} (hc : xmmReady s = true)
    (hw : rmWrite n al f s rm v = .error p) : xmmStore n al f s rm v = .error p := stops_after (xmmCheck_ok.mpr hc) hw

theorem xmmNumeric_stops {compute : Xword → BitVec w → Signalled Xword} (hc : xmmReady s = true) (hr : read s rm = .error p) :
    xmmNumeric read compute s r rm = .error p := stops_after (xmmCheck_ok.mpr hc) (stops_first hr)

/-- CMPPS and CMPSS read their operand before they look at the predicate (46 R271; log 26). -/
theorem withPredicate_stops {imm : Byte} (hr : read s rm = .error p) : withPredicate imm read s rm = .error p := stops_first hr

theorem xmmCompare_stops {signals : Dword → Dword → FpFlags} (hc : xmmReady s = true) (hr : xmm32 s rm = .error p) :
    xmmCompare signals s r rm = .error p := stops_after (xmmCheck_ok.mpr hc) (stops_first hr)

theorem xmmToGpr_stops {f : Dword → Signalled Dword} (hc : xmmReady s = true) (hr : xmm32 s rm = .error p) :
    xmmToGpr f s r rm = .error p := stops_after (xmmCheck_ok.mpr hc) (stops_first hr)

/-- The checks of the conversions with an MMX operand, in the form `checksPass` gives them. -/
theorem xmmMmxCheck_of_ready (hc : (xmmReady s && !s.x87Pending) = true) : xmmMmxCheck s = .ok () :=
  xmmMmxCheck_ok.mpr (by simpa using hc)

theorem xmmToMmx_stops {f : Dword → Signalled Dword} (hc : (xmmReady s && !s.x87Pending) = true) (hr : xmm64 s rm = .error p) :
    xmmToMmx f s r rm = .error p := stops_after (xmmMmxCheck_of_ready hc) (stops_first hr)

/-- The checks of FXSAVE and FXRSTOR pass exactly when none of their conditions holds (48 R340). -/
theorem fxCheck_ok {u : Unit} : fxCheck s = .ok u ↔ fxReady s = true := by
  simp only [fxCheck, bind_ok, raiseIf_ok, fxReady, Bool.and_eq_true, Bool.not_eq_true', exists_and_left, and_assoc]
  simp

/-- An instruction whose earlier checks pass stops where its access to memory does, whichever of the table of 20_memory R73 it is. -/
theorem exec_stops_at_access {i : Instr} (hx : memAccess i = some x) (hc : checksPass i s = true) (hp : x.check s = .error p) :
    exec i s = Effect.outcome (.error p) := by
  cases i with
  | punpcklbw | punpcklwd | punpckldq | packsswb | pcmpgtb | pcmpgtw | pcmpgtd | packuswb | punpckhbw | punpckhwd | punpckhdq
  | packssdw | movdLoad | movqLoad | pcmpeqb | pcmpeqw | pcmpeqd | psrlw | psrld | psrlq | pmullw | psubusb | psubusw | pand
  | paddusb | paddusw | pandn | psraw | psrad | pmulhw | psubsb | psubsw | por | paddsb | paddsw | pxor | psllw | pslld | psllq
  | pmaddwd | psubb | psubw | psubd | paddb | paddw | paddd | pshufw | pinsrw | pminub | pmaxub | pavgb | pavgw | pmulhuw
  | pminsw | pmaxsw | psadbw => exact congrArg Effect.outcome (mmxBinary_stops hc (rmRead_stops hx hp))
  | movdStore | movqStore | movntq => exact congrArg Effect.outcome (mmxStore_stops hc (rmWrite_stops hx hp))
  | movupsLoad | movssLoad | movlpsLoad | unpcklps | unpckhps | movhpsLoad | movapsLoad | rsqrtps | rsqrtss | rcpps | rcpss
  | andps | andnps | orps | xorps | shufps => exact congrArg Effect.outcome (xmmBinary_stops hc (rmRead_stops hx hp))
  | movupsStore | movssStore | movlpsStore | movhpsStore | movapsStore | movntps | stmxcsr =>
    exact congrArg Effect.outcome (xmmStore_stops hc (rmWrite_stops hx hp))
  | cvtsi2ss | sqrtps | sqrtss | addps | addss | mulps | mulss | subps | subss | minps | minss | maxps | maxss =>
    exact congrArg Effect.outcome (xmmNumeric_stops hc (rmRead_stops hx hp))
  | cmpps | cmpss => exact congrArg Effect.outcome (xmmNumeric_stops hc (withPredicate_stops (rmRead_stops hx hp)))
  | divps | divss => exact congrArg Effect.outcome (stops_first (xmmNumeric_stops hc (rmRead_stops hx hp)))
  | comiss | ucomiss => exact congrArg Effect.outcome (xmmCompare_stops hc (rmRead_stops hx hp))
  | cvttss2si | cvtss2si => exact congrArg Effect.outcome (xmmToGpr_stops hc (rmRead_stops hx hp))
  | cvttps2pi | cvtps2pi => exact congrArg Effect.outcome (xmmToMmx_stops hc (rmRead_stops hx hp))
  | cvtpi2ps =>
    exact congrArg Effect.outcome (stops_after (xmmMmxCheck_of_ready hc) (stops_first (rmRead_stops hx hp)))
  | fxsave | fxrstor =>
    cases hx
    exact congrArg Effect.outcome (stops_after (fxCheck_ok.mpr hc) (stops_first hp))
  | ldmxcsr =>
    cases hx
    exact congrArg Effect.outcome (stops_after (xmmCheck_ok.mpr hc) (stops_first (stops_first hp)))
  | emms | psrlwImm | psrawImm | psllwImm | psrldImm | psradImm | pslldImm | psrlqImm | psllqImm | pextrw | pmovmskb | maskmovq
  | movhlps | movlhps | movmskps | prefetchnta | prefetcht0 | prefetcht1 | prefetcht2 | sfence | wrmsr | rdtsc | rdmsr | cpuid =>
    cases hx

end

/-- MASKMOVQ stops where the checks of its selected bytes do (48 R350). -/
theorem maskmovq_stops {s : State} {r q : Reg} {ovr : Option Seg} {size : AddrSize} {p : Stop} (hc : mmxReady .three s = true)
    (hp : checkBytes .write s ((selectedBytes (s.mm q)).map (s.maskByteAddr ovr size)) = .error p) :
    exec (.maskmovq r q ovr size) s = Effect.outcome (.error p) :=
  congrArg Effect.outcome (stops_after (mmxCheck_ok.mpr hc) (stops_first hp))

/-! ### Alignment (R75) -/

/-- The checks of an access in terms of `aligned16`: alignment where it must be, then the bytes. -/
theorem MemAccess.check_eq (x : MemAccess) (s : State) :
    x.check s = (raiseIf (x.aligned && !aligned16 (s.lin x.mem)) .gp s >>= fun _ =>
      checkBytes x.acc s (addresses (s.lin x.mem) x.bytes)) := rfl

theorem MemAccess.check_misaligned {x : MemAccess} {s : State} (hx : x.aligned = true) (ha : aligned16 (s.lin x.mem) = false) :
    x.check s = .error (.fault (.gp s)) := by
  rw [MemAccess.check_eq, hx, ha]
  rfl

/-- Once the address is aligned where it must be, the checks are those of the bytes. -/
theorem MemAccess.check_of_aligned {x : MemAccess} {s : State} (ha : x.aligned = true → aligned16 (s.lin x.mem) = true) :
    x.check s = checkBytes x.acc s (addresses (s.lin x.mem) x.bytes) := by
  rw [MemAccess.check_eq]
  cases hx : x.aligned with
  | false => rfl
  | true => rw [ha hx]; rfl

/-- Settles O19: each of the instructions accesses 16 bytes (FXSAVE and FXRSTOR 512) that must be aligned, and stops where the access
does. -/
theorem misalignedOperandRaisesGp : Obligations.MisalignedOperandRaisesGp := by
  refine ⟨fun s r m imm hc ha i hi => ?_, fun s m hc ha => ?_⟩
  · have hacc : ∃ acc, memAccess i = some ⟨m, acc, 16, true⟩ ∧ frameOf i = .xmm := by
      fin_cases hi <;> exact ⟨_, rfl, rfl⟩
    obtain ⟨acc, hx, hf⟩ := hacc
    exact exec_stops_at_access hx (by rw [checksPass, hf]; exact hc) (MemAccess.check_misaligned rfl ha)
  · exact ⟨exec_stops_at_access (i := .fxsave m) rfl hc (MemAccess.check_misaligned rfl ha),
      exec_stops_at_access (i := .fxrstor m) rfl hc (MemAccess.check_misaligned rfl ha)⟩

/-! ### The byte that the checks name: the bytes of an access, and those that MASKMOVQ selects, are numbered in rising order -/

@[simp] theorem addresses_length (a : Addr) (n : Nat) : (addresses a n).length = n := by
  induction n generalizing a with
  | zero => rfl
  | succ n ih => simp [addresses, ih]

/-- The addresses of an access by byte number. -/
theorem addresses_eq_map (a : Addr) (n : Nat) : addresses a n = (List.range n).map fun j => a + BitVec.ofNat 32 j :=
  List.ext_getElem (by simp) fun k h _ => by simp [addresses_get a n k h]

theorem mem_selectedBytes {v : Qword} {j : Nat} : j ∈ selectedBytes v ↔ j < 8 ∧ (elem 8 v j).getLsbD 7 = true := by
  simp [selectedBytes]

theorem selectedBytes_sorted (v : Qword) : (selectedBytes v).Pairwise (· < ·) := List.pairwise_lt_range.filter _

/-- In a rising list, the entries before one are below it. -/
theorem exists_split_of_sorted {js : List Nat} (hs : js.Pairwise (· < ·)) {k : Nat} (hk : k ∈ js) :
    ∃ pre post, js = pre ++ k :: post ∧ ∀ j ∈ pre, j ∈ js ∧ j < k := by
  obtain ⟨pre, post, rfl⟩ := List.append_of_mem hk
  obtain ⟨-, -, hbelow⟩ := List.pairwise_append.mp hs
  exact ⟨pre, post, rfl, fun j hj => ⟨List.mem_append_left _ hj, hbelow j hj k List.mem_cons_self⟩⟩

section
variable {s : State} {acc : Access} {js : List Nat} {f : Nat → Addr} {k : Nat}

/-- The addresses of numbered bytes, split at one: those before it satisfy what all of lower number do. -/
theorem exists_split_map {P : Addr → Prop} (hs : js.Pairwise (· < ·)) (hk : k ∈ js) (hlow : ∀ j ∈ js, j < k → P (f j)) :
    ∃ pre post, js.map f = pre ++ f k :: post ∧ ∀ b ∈ pre, P b := by
  obtain ⟨pre, post, hjs, hpre⟩ := exists_split_of_sorted hs hk
  refine ⟨pre.map f, post.map f, by rw [hjs, List.map_append, List.map_cons], fun b hb => ?_⟩
  obtain ⟨j, hj, rfl⟩ := List.mem_map.mp hb
  exact hlow j (hpre j hj).1 (hpre j hj).2

theorem checkAdmit_map (h : ∀ j ∈ js, memAdmit s.plat acc (f j) = true) : checkAdmit acc s (js.map f) = .ok () :=
  checkAdmit_ok.mpr (List.forall_mem_map.mpr h)

theorem checkDevice_map (h : ∀ j ∈ js, inDevice s.plat (f j) = false) : checkDevice s (js.map f) = .ok () :=
  checkDevice_ok.mpr (List.forall_mem_map.mpr h)

/-- The lowest byte that `MemAdmit` shuts out raises #PF (20_memory R76), whatever device or program bytes there are (log 24). -/
theorem checkBytes_inadmissible (hs : js.Pairwise (· < ·)) (hk : k ∈ js)
    (hlow : ∀ j ∈ js, j < k → memAdmit s.plat acc (f j) = true) (ha : memAdmit s.plat acc (f k) = false) :
    checkBytes acc s (js.map f) = .error (.fault (.pf (f k) (pageFaultCode acc s (f k)) s)) := by
  obtain ⟨pre, post, hmap, hpre⟩ := exists_split_map (P := fun b => memAdmit s.plat acc b = true) hs hk hlow
  rw [hmap]
  exact stops_first (checkAdmit_first hpre ha)

/-- Where all bytes are admitted, the lowest one in a device range is refused (20_memory R78). -/
theorem checkBytes_device (hs : js.Pairwise (· < ·)) (hk : k ∈ js) (hadmit : ∀ j ∈ js, memAdmit s.plat acc (f j) = true)
    (hlow : ∀ j ∈ js, j < k → inDevice s.plat (f j) = false) (hd : inDevice s.plat (f k) = true) :
    checkBytes acc s (js.map f) = .error (.refused (.deviceAccess (f k))) := by
  obtain ⟨pre, post, hmap, hpre⟩ := exists_split_map (P := fun b => inDevice s.plat b = false) hs hk hlow
  refine stops_after (checkAdmit_map hadmit) ?_
  rw [hmap]
  exact stops_first (checkDevice_first hpre hd)

/-- Where all bytes of a store are admitted and none is a device's, the lowest one in the program is refused (20_memory R92). -/
theorem checkBytes_code (hs : js.Pairwise (· < ·)) (hk : k ∈ js) (hadmit : ∀ j ∈ js, memAdmit s.plat .write (f j) = true)
    (hdevice : ∀ j ∈ js, inDevice s.plat (f j) = false) (hlow : ∀ j ∈ js, j < k → inCode s.plat (f j) = false)
    (hcode : inCode s.plat (f k) = true) : checkBytes .write s (js.map f) = .error (.refused (.storeToCode (f k))) := by
  obtain ⟨pre, post, hmap, hpre⟩ := exists_split_map (P := fun b => inCode s.plat b = false) hs hk hlow
  refine stops_after (checkAdmit_map hadmit) (stops_after (checkDevice_map hdevice) ?_)
  rw [hmap]
  exact checkCode_first hpre hcode

end

/-! ### The error code of #PF (60_exceptions R380) -/

theorem isAbsent_iff {p : Platform} {a : Addr} : isAbsent p a = true ↔ ∃ g ∈ p.regions, g.holds a = true ∧ g.kind = .absent := by
  simp [isAbsent]

/-- The bits present, write and user, and no other (log 29). -/
theorem pageFaultCode_bits (acc : Access) (s : State) (a : Addr) :
    (pageFaultCode acc s a).toNat < 8 ∧
      ((pageFaultCode acc s a).getLsbD 0 = false ↔ ∃ g ∈ s.plat.regions, g.holds a = true ∧ g.kind = .absent) ∧
      ((pageFaultCode acc s a).getLsbD 1 = true ↔ acc = .write) ∧
      ((pageFaultCode acc s a).getLsbD 2 = true ↔ s.cpl = 3#2) := by
  have hbits : ∀ absent write user : Bool,
      let code := (if absent then 0#32 else 1#32) ||| (if write then 2#32 else 0#32) ||| (if user then 4#32 else 0#32)
      code.toNat < 8 ∧ (code.getLsbD 0 = false ↔ absent = true) ∧ (code.getLsbD 1 = true ↔ write = true) ∧
        (code.getLsbD 2 = true ↔ user = true) := by decide
  simpa [pageFaultCode, isAbsent_iff] using hbits (isAbsent s.plat a) (decide (acc = .write)) (decide (s.cpl = 3#2))

/-- Settles O20: an instruction stops where the checks of its bytes do, and those raise #PF at the lowest byte shut out. -/
theorem firstInadmissibleByteRaisesPf : Obligations.FirstInadmissibleByteRaisesPf := by
  refine ⟨fun i s x k hx hc hal hk hlow ha => ⟨_, exec_stops_at_access (p := .fault _) hx hc ?_, pageFaultCode_bits x.acc s _⟩,
    fun s r q ovr size k hc hk hsel hlow ha => ⟨_, maskmovq_stops (p := .fault _) hc ?_, pageFaultCode_bits .write s _⟩⟩
  · rw [MemAccess.check_of_aligned hal, addresses_eq_map]
    exact checkBytes_inadmissible List.pairwise_lt_range (List.mem_range.mpr hk) (fun j _ => hlow j) ha
  · exact checkBytes_inadmissible (selectedBytes_sorted _) (mem_selectedBytes.mpr ⟨hk, hsel⟩)
      (fun j hj hlt => hlow j hlt (mem_selectedBytes.mp hj).2) ha

/-- Settles O21: the same with the two refusals, which the checks of the bytes make after `MemAdmit`. -/
theorem accessesTheModelRefuses : Obligations.AccessesTheModelRefuses := by
  refine ⟨fun i s x k hx hc hal hk hadmit => ?_, fun s r q ovr size k hc hk hadmit => ⟨fun hlow hd => ?_,
    fun hdevice hlow hcode => ?_⟩⟩
  · have hcheck := MemAccess.check_of_aligned hal
    rw [addresses_eq_map] at hcheck
    have hk := List.mem_range.mpr hk
    have hadmit := fun j hj => hadmit j (List.mem_range.mp hj)
    refine ⟨fun hlow hd => exec_stops_at_access (p := .refused _) hx hc (hcheck.trans ?_),
      fun hw hdevice hlow hcode => exec_stops_at_access (p := .refused _) hx hc (hcheck.trans ?_)⟩
    · exact checkBytes_device List.pairwise_lt_range hk hadmit (fun j _ => hlow j) hd
    · rw [hw] at hadmit ⊢
      exact checkBytes_code List.pairwise_lt_range hk hadmit (fun j hj => hdevice j (List.mem_range.mp hj)) (fun j _ => hlow j) hcode
  all_goals
    refine maskmovq_stops (p := .refused _) hc ?_
    have hk := mem_selectedBytes.mpr hk
    have hadmit := fun j hj => hadmit j (mem_selectedBytes.mp hj)
  · exact checkBytes_device (selectedBytes_sorted _) hk hadmit (fun j hj hlt => hlow j hlt (mem_selectedBytes.mp hj)) hd
  · exact checkBytes_code (selectedBytes_sorted _) hk hadmit (fun j hj => hdevice j (mem_selectedBytes.mp hj))
      (fun j hj hlt => hlow j hlt (mem_selectedBytes.mp hj)) hcode

end Sys2Proof.Machine
end

section
/-! PROOFS. Addresses as numbers: the effective address, the segment and the linear address of a memory operand, and the bytes of MASKMOVQ
(20_memory R74; 30_encoding R108 to R111; 48 R350). -/

namespace Sys2Proof.Machine

@[simp] theorem State.x16_toNat (s : State) (r : Reg) : (s.x16 r).toNat = (s.x r).toNat % 2 ^ 16 := BitVec.toNat_setWidth ..

/-- A 16-bit offset as a 32-bit one is the same number. -/
theorem zeroExtend_toNat (v : Word) : (v.setWidth 32).toNat = v.toNat := BitVec.toNat_setWidth_of_le (by decide)

/-! ### The effective address -/

/-- The index times its scale, modulo 2^32 (R109). -/
theorem State.indexPart_toNat (s : State) (q : Reg) (scale : BitVec 2) :
    (s.indexPart (some (q, scale))).toNat = (s.x q).toNat * 2 ^ scale.toNat % 2 ^ 32 := by
  rw [State.indexPart, BitVec.toNat_shiftLeft, Nat.shiftLeft_eq]

/-- The sum modulo 2^32, from the index's part modulo 2^32 (R108, R109). -/
theorem State.ea32_toNat (s : State) {o : Option Seg} {b : Option Reg} {ix : Option (Reg × BitVec 2)} {d : BitVec 32} {n : Nat}
    (hix : (s.indexPart ix).toNat = n % 2 ^ 32) :
    (s.ea (.a32 o b ix d)).toNat = ((s.basePart b).toNat + n + d.toNat) % 2 ^ 32 := by
  simp only [State.ea, BitVec.toNat_add, hix, Nat.mod_add_mod, Nat.add_mod_mod]

theorem State.ea16_none_toNat (s : State) (o : Option Seg) (d : BitVec 16) : (s.ea (.a16 o none d)).toNat = d.toNat :=
  zeroExtend_toNat d

theorem State.ea16_toNat (s : State) (o : Option Seg) (b : Base16) (d : BitVec 16) :
    (s.ea (.a16 o (some b) d)).toNat = ((s.base16 b).toNat + d.toNat) % 2 ^ 16 := by
  rw [State.ea, zeroExtend_toNat, BitVec.toNat_add]

/-! ### The bytes of MASKMOVQ (48 R350) -/

theorem State.maskByteAddr32_toNat (s : State) (ovr : Option Seg) (i : Nat) :
    (s.maskByteAddr ovr .a32 i).toNat = ((s.segBase (ovr.getD .ds)).toNat + (s.x edi).toNat + i) % 2 ^ 32 := by
  simp only [State.maskByteAddr, BitVec.toNat_add, BitVec.toNat_ofNat]
  omega

theorem State.maskByteAddr16_toNat (s : State) (ovr : Option Seg) (i : Nat) :
    (s.maskByteAddr ovr .a16 i).toNat = ((s.segBase (ovr.getD .ds)).toNat + ((s.x16 edi).toNat + i) % 2 ^ 16) % 2 ^ 32 := by
  simp only [State.maskByteAddr, BitVec.toNat_add, zeroExtend_toNat, BitVec.toNat_ofNat, Nat.add_mod_mod]

/-- Settles O6: each part of an address as a number. -/
theorem addressesOfMemoryOperands : Obligations.AddressesOfMemoryOperands := by
  intro s low base
  have hlow : ∀ r, (s.x16 r).toNat = low r := s.x16_toNat
  have hbase : ∀ g, (s.segBase g).toNat = base g := fun g => by cases g <;> rfl
  refine ⟨fun o b ix d => ?_, fun o b d => ?_, fun b ix d => ?_, fun b d => ?_, fun _ _ _ _ => rfl, fun _ _ _ => rfl,
    fun m => ?_, fun ovr i _ => ⟨?_, ?_⟩⟩
  · cases ix with
    | none => cases b <;> exact s.ea32_toNat rfl
    | some p =>
      obtain ⟨q, scale⟩ := p
      cases b <;> exact s.ea32_toNat (s.indexPart_toNat q scale)
  · cases b with
    | none => rw [State.ea16_none_toNat, Nat.zero_add, Nat.mod_eq_of_lt d.isLt]
    | some b =>
      rw [State.ea16_toNat]
      cases b <;> simp only [State.base16, BitVec.toNat_add, Nat.mod_add_mod, hlow]
  · cases b with
    | none => rfl
    | some q => simp [memSeg, memOverride, memDefaultSeg]
  · cases b with
    | none => rfl
    | some b => cases b <;> rfl
  · rw [State.lin, BitVec.toNat_add, hbase]
  · rw [State.maskByteAddr32_toNat, hbase]
    rfl
  · rw [State.maskByteAddr16_toNat, hbase, hlow]
    rfl

end Sys2Proof.Machine
end

section
/-! PROOFS. The hints: PREFETCHh, SFENCE, and the reserved encodings 0F 18 /4 to /7 (48 R356, R357; 30_encoding R117). -/

namespace Sys2Proof

/-- The row of 0F 18: /0 to /3 the prefetches, every other extension a reserved hint, a register operand an invalid form (R117). -/
theorem findForm_hint : ∃ mkMem mkReg, findForm false 0x18#8 = some (.group mkMem mkReg) ∧
    ∀ n : Reg, 4 ≤ n.toNat → mkMem n = some fun _ => .reservedHint := by
  refine ⟨_, _, rfl, fun n hn => ?_⟩
  rw [if_neg, if_neg, if_neg, if_neg]
  all_goals
    rintro rfl
    revert hn
    decide

/-- The reserved hints decode, in every form of their memory operand, whatever follows (R104, R117). -/
theorem decode_reservedHint (form : MemForm) (cs : CodeSize) {n : Reg} (hn : 4 ≤ n.toNat) {m : Mem} (hw : m.wf) (rest : List Byte) :
    decode cs (encodeRm form cs false 0x18#8 n (.mem m) [] ++ rest) =
      .ok (.reservedHint, (encodeRm form cs false 0x18#8 n (.mem m) []).length) := by
  obtain ⟨mkMem, mkReg, hrow, hmk⟩ := findForm_hint
  obtain ⟨o, a67, modrm, body, hs, rfl, hparse⟩ :=
    encodeRm_readsBack form cs false 0x18#8 n (rm := .mem m) hw [] (p := noPrefixes) rfl rest
  have hbuild : (Form.group mkMem mkReg).build (addrSizeOf cs a67) o (fieldReg modrm) (.mem m) 0#8 = .reservedHint := by
    simp only [Form.build, hmk _ hn]
  have hform := parseForm_rm (f := .group mkMem mkReg) rfl rfl hparse
  rw [noPrefixes, RM.orOvr_none, hbuild] at hform
  rw [decode_eq_row hs, opcodeRow_ok hrow rfl]
  simp only [Except.bind, hform, noPrefixes, Bool.false_eq_true, if_false, List.nil_append, List.length_append, Nat.add_sub_cancel]

end Sys2Proof

namespace Sys2Proof.Machine

/-- A hint is there from the Pentium III on, and is then nothing; before it raises #UD (48 R356, R357; log 31). -/
theorem hint_eq (s : State) : hint s = if s.plat.gen = .pentiumIII then .ok s else .error (.fault (.ud s)) := by
  rw [hint, genCheck, present]
  cases s.plat.gen <;> rfl

/-- A step over a reserved hint of at most 15 bytes. -/
theorem step_reservedHint {s : State} {len : Nat} (hd : decode s.plat.codeSize s.fetchBytes = .ok (.reservedHint, len))
    (hl : len ≤ 15) : step s = advanceOutcome len (hint s).outcome := by
  have hc : lengthCheck len s = .ok () := lengthCheck_ok.mpr hl
  simp only [step, hd, hc, runDecoded]

/-- Settles O57: a hint is nothing (`hint_eq`), and the reserved ones decode as hints (`decode_reservedHint`). -/
theorem hintsChangeNothing : Obligations.HintsChangeNothing := by
  refine ⟨fun s m hg => ?_, fun form cs n m rest hn hw => decode_reservedHint form cs hn hw rest,
    fun s len hd hl => ⟨fun hg => ?_, fun hg => ?_⟩⟩
  · have h : (hint s).outcome = .next s := by rw [hint_eq, if_pos hg]; rfl
    exact ⟨h, h, h, h, h⟩
  · rw [step_reservedHint hd hl, hint_eq, if_pos hg]
    rfl
  · rw [step_reservedHint hd hl, hint_eq, if_neg hg]
    rfl

end Sys2Proof.Machine
end

section
/-! PROOFS. Decoding what the encoder writes, alone and after LOCK, F2h, 66h or F3h (30_encoding R100 to R119). -/

namespace Sys2Proof

open Machine

/-! ### The rows of the maps, by the instructions they make (R113 to R118) -/

/-- A row agrees with the instructions it makes: 66h has no effect before the system instructions alone, and the F3h row of the same
opcode, where there is one, reads the same operands and makes of them what F3h makes of the instruction (R106, R116). -/
structure OpRow.Agrees (row : OpRow) : Prop where
  sameShape : ((findForm true row.op).all fun g => g.hasModRm == row.form.hasModRm && g.hasImm == row.form.hasImm) = true
  makes : ∀ size ovr r rm imm i, row.form.build size ovr r rm imm = .instr i →
    row.form.takes66 = decide (frameOf i = .system) ∧
      (findForm true row.op).map (·.build size ovr r rm imm) = (withF3 i).map .instr

/-- A 3-bit field has eight values (R102, R103). -/
theorem reg_cases (r : Reg) : r = 0#3 ∨ r = 1#3 ∨ r = 2#3 ∨ r = 3#3 ∨ r = 4#3 ∨ r = 5#3 ∨ r = 6#3 ∨ r = 7#3 := by
  revert r; decide

/-- The rows where the opcode, and at most the kind of the r/m operand, decides the instruction (R113, R115, R116, R118). -/
theorem opcodesUnsplit_agree : ∀ row ∈ opcodesMmx ++ opcodesMmxIII ++ opcodesXmmA ++ opcodesXmmB ++ opcodesSystem, row.Agrees := by
  simp only [opcodesMmx, opcodesMmxIII, opcodesXmmA, opcodesXmmB, opcodesSystem, List.forall_mem_append, List.forall_mem_cons,
    List.not_mem_nil, false_implies, implies_true, and_true]
  and_intros
  all_goals
    refine ⟨rfl, fun _ _ _ rm _ _ h => ?_⟩
    cases rm <;> cases h <;> exact ⟨rfl, rfl⟩

/-- The rows that ModR/M.reg or ModR/M.mod splits (R114, R116, R117, R119). -/
theorem opcodesSplit_agree : ∀ row ∈ opcodesShiftImm ++ opcodesGroups, row.Agrees := by
  simp only [opcodesShiftImm, opcodesGroups, List.forall_mem_append, List.forall_mem_cons, List.not_mem_nil, false_implies, implies_true,
    and_true]
  and_intros
  all_goals
    refine ⟨rfl, fun _ _ r rm _ _ h => ?_⟩
    obtain rfl | rfl | rfl | rfl | rfl | rfl | rfl | rfl := reg_cases r <;> cases rm <;> cases h <;> exact ⟨rfl, rfl⟩

theorem opcodeTable_agree {row : OpRow} (h : row ∈ opcodeTable) : row.Agrees := by
  have plain := opcodesUnsplit_agree row
  have split := opcodesSplit_agree row
  simp only [opcodeTable, List.mem_append] at h plain split
  tauto

/-- What is found in the maps is the row of that F3h and opcode. -/
theorem findRow_mem {f3 : Bool} {op : Byte} {rows : List OpRow} {f : Form} (h : findRow f3 op rows = some f) :
    ⟨f3, op, f⟩ ∈ rows := by
  induction rows with
  | nil => cases h
  | cons row rows ih =>
    simp only [findRow] at h
    split at h
    · next hrow => obtain ⟨rfl, rfl⟩ := hrow; cases h; exact List.mem_cons_self
    · exact List.mem_cons_of_mem _ (ih h)

/-! ### Another row over the same operands -/

/-- What a row's parser reads is built of operands that a row of the same shape reads too. -/
theorem parseForm_build {size : AddrSize} {ovr : Option Seg} {f : Form} {body rest : List Byte} {d : Decoded}
    (h : parseForm size ovr f body = .ok (d, rest)) :
    ∃ r rm imm, f.build size ovr r rm imm = d ∧ ∀ g : Form, g.hasModRm = f.hasModRm → g.hasImm = f.hasImm →
      parseForm size ovr g body = .ok (g.build size ovr r rm imm, rest) := by
  cases hm : f.hasModRm with
  | false =>
    simp only [parseForm, hm, Bool.false_eq_true, if_false] at h
    cases h
    exact ⟨_, _, _, rfl, fun g hg _ => by simp only [parseForm, hg, Bool.false_eq_true, if_false]; rfl⟩
  | true =>
    cases body with
    | nil => simp [parseForm, hm] at h
    | cons modrm body =>
      cases hrm : parseRM size ovr (fieldMod modrm) (fieldRm modrm) body with
      | error e => simp [parseForm, hm, hrm, bind, Except.bind] at h
      | ok a =>
        obtain ⟨rm, r⟩ := a
        cases hi : f.hasImm with
        | false =>
          rw [parseForm_rm hm hi hrm] at h
          cases h
          exact ⟨_, _, _, rfl, fun g hg hgi => parseForm_rm hg hgi hrm⟩
        | true =>
          cases r with
          | nil => simp [parseForm, hm, hi, hrm, takeImm, bind, Except.bind] at h
          | cons imm r =>
            rw [parseForm_rmImm hm hi hrm] at h
            cases h
            exact ⟨_, _, _, rfl, fun g hg hgi => parseForm_rmImm hg hgi hrm⟩

/-- A row that reads an instruction takes 66h exactly where it is a system instruction (R106). -/
theorem takes66_of_parseForm {f3 : Bool} {op : Byte} {f : Form} {size : AddrSize} {ovr : Option Seg} {body rest : List Byte} {i : Instr}
    (hf : findForm f3 op = some f) (h : parseForm size ovr f body = .ok (.instr i, rest)) :
    f.takes66 = decide (frameOf i = .system) := by
  obtain ⟨r, rm, imm, hb, -⟩ := parseForm_build h
  exact ((opcodeTable_agree (findRow_mem hf)).makes _ _ _ _ _ _ hb).1

/-- F3h before an instruction that a row reads: what F3h makes of it is read by the F3h row of the opcode, and where F3h makes nothing of
it there is no such row (R106, R116). -/
theorem f3Row_of_parseForm {f3 : Bool} {op : Byte} {f : Form} {size : AddrSize} {ovr : Option Seg} {body rest : List Byte} {i : Instr}
    (hf : findForm f3 op = some f) (h : parseForm size ovr f body = .ok (.instr i, rest)) :
    match withF3 i with
    | some j => ∃ g, findForm true op = some g ∧ parseForm size ovr g body = .ok (.instr j, rest)
    | none => findForm true op = none := by
  obtain ⟨r, rm, imm, hb, hother⟩ := parseForm_build h
  obtain ⟨hshape, hmakes⟩ := opcodeTable_agree (findRow_mem hf)
  have hmap := (hmakes _ _ _ _ _ _ hb).2
  dsimp only at hshape hmap
  cases hg : findForm true op with
  | none =>
    rw [hg] at hmap
    cases hj : withF3 i with
    | none => rfl
    | some j => rw [hj] at hmap; cases hmap
  | some g =>
    rw [hg] at hmap hshape
    cases hj : withF3 i with
    | none => rw [hj] at hmap; cases hmap
    | some j =>
      rw [hj] at hmap
      simp only [Option.map_some, Option.some.injEq] at hmap
      simp only [Option.all_some, Bool.and_eq_true, beq_iff_eq] at hshape
      exact ⟨g, rfl, hmap ▸ hother g hshape.1 hshape.2⟩

/-! ### Bytes that are read back, after prefixes -/

/-- A row that the maps have, after prefixes that it does not take. -/
theorem opcodeRow_reserved {p : Prefixes} {op : Byte} {f : Form} (hf : findForm p.f3 op = some f)
    (hp : (p.f2 || (p.p66 && !f.takes66)) = true) : opcodeRow p 0x0F#8 op = .error .reservedPrefix := by
  simp only [opcodeRow, hf, hp, ne_eq, not_true_eq_false, if_false, if_true]

/-- An opcode that the maps have without F3h alone, after F3h. -/
theorem opcodeRow_noF3 {p : Prefixes} {op : Byte} {f : Form} (hf3 : findForm p.f3 op = none) (hf : findForm false op = some f) :
    opcodeRow p 0x0F#8 op = .error .reservedPrefix := by
  simp only [opcodeRow, hf3, hf, Option.isSome_some, ne_eq, not_true_eq_false, if_false, if_true]

section
variable {cs : CodeSize} {bytes : List Byte} {i : Instr} {pre : List Byte} {p : Prefixes}

/-- Bytes that are read back, after prefixes without 67h and without an override: their opcode's row reads the instruction, and the
decoder takes the row that all the prefixes leave. -/
theorem ReadsBack.decode_eq (h : ReadsBack cs bytes i) (hpre : ∀ bs, scanPrefixes (pre ++ bs) noPrefixes = scanPrefixes bs p)
    (h67 : p.a67 = false) (hovr : p.ovr = none) (rest : List Byte) :
    ∃ f3 op f size ovr body, findForm f3 op = some f ∧ parseForm size ovr f body = .ok (.instr i, rest) ∧
      decode cs (pre ++ (bytes ++ rest)) =
        (opcodeRow { p with f3 := p.f3 || f3 } 0x0F#8 op).bind fun g => (parseForm size ovr g body).bind fun a =>
          .ok (if p.lock then .locked else a.1, (pre ++ (bytes ++ rest)).length - a.2.length) := by
  obtain ⟨f3, op, f, hf, hread⟩ := h
  obtain ⟨o, a67, body, j, hs, hparse, hj⟩ := hread p rest h67
  rw [hj hovr] at hparse
  rw [← hpre] at hs
  exact ⟨f3, op, f, _, o, body, hf, hparse, decode_eq_row hs⟩

/-- The length of an instruction with its prefixes, where they and it are read. -/
theorem length_read (pre bytes rest : List Byte) : (pre ++ (bytes ++ rest)).length - rest.length = bytes.length + pre.length := by
  simp only [List.length_append]; omega

/-- After prefixes that the instruction takes, the bytes decode to it with the length of all, or to the locked form (R106). -/
theorem ReadsBack.decode_taken (h : ReadsBack cs bytes i) (hpre : ∀ bs, scanPrefixes (pre ++ bs) noPrefixes = scanPrefixes bs p)
    (h67 : p.a67 = false) (hovr : p.ovr = none) (hf3 : p.f3 = false) (hp : (p.f2 || (p.p66 && !decide (frameOf i = .system))) = false)
    (rest : List Byte) :
    decode cs (pre ++ (bytes ++ rest)) = .ok (if p.lock then .locked else .instr i, bytes.length + pre.length) := by
  obtain ⟨f3, op, f, size, ovr, body, hf, hparse, hd⟩ := h.decode_eq hpre h67 hovr rest
  rw [← takes66_of_parseForm hf hparse] at hp
  have hrow : opcodeRow { p with f3 := p.f3 || f3 } 0x0F#8 op = .ok f := opcodeRow_ok (by simpa only [hf3, Bool.false_or] using hf) hp
  simpa only [hrow, Except.bind, hparse, length_read] using hd

/-- F2h anywhere before an instruction is reserved, and 66h before all but the system instructions (R106). -/
theorem ReadsBack.decode_reserved (h : ReadsBack cs bytes i) (hpre : ∀ bs, scanPrefixes (pre ++ bs) noPrefixes = scanPrefixes bs p)
    (h67 : p.a67 = false) (hovr : p.ovr = none) (hf3 : p.f3 = false) (hp : (p.f2 || (p.p66 && !decide (frameOf i = .system))) = true)
    (rest : List Byte) : decode cs (pre ++ (bytes ++ rest)) = .error .reservedPrefix := by
  obtain ⟨f3, op, f, size, ovr, body, hf, hparse, hd⟩ := h.decode_eq hpre h67 hovr rest
  rw [← takes66_of_parseForm hf hparse] at hp
  have hrow : opcodeRow { p with f3 := p.f3 || f3 } 0x0F#8 op = .error .reservedPrefix :=
    opcodeRow_reserved (by simpa only [hf3, Bool.false_or] using hf) hp
  rw [hd, hrow]
  rfl

/-- F3h before an instruction makes the scalar instruction of its opcode, and is reserved where there is none (R106, R116; log 13). -/
theorem ReadsBack.decode_f3 (h : ReadsBack cs bytes i) (rest : List Byte) :
    decode cs (0xF3#8 :: (bytes ++ rest)) =
      match withF3 i with
      | some j => .ok (.instr j, bytes.length + 1)
      | none => .error .reservedPrefix := by
  obtain ⟨f3, op, f, size, ovr, body, hf, hparse, hd⟩ :=
    h.decode_eq (pre := [0xF3#8]) (p := { noPrefixes with f3 := true }) (fun _ => rfl) rfl rfl rest
  have hscalar := f3Row_of_parseForm hf hparse
  refine hd.trans ?_
  cases hj : withF3 i with
  | some j =>
    rw [hj] at hscalar
    obtain ⟨g, hg, hgparse⟩ := hscalar
    rw [opcodeRow_ok hg rfl]
    simp only [Except.bind, hgparse, length_read]
    rfl
  | none =>
    rw [hj] at hscalar
    cases f3 with
    | false => rw [opcodeRow_noF3 hscalar hf]; rfl
    | true => cases hscalar.symm.trans hf

end

/-- Settles O3: the bytes of every instruction are read back, row by row of the maps (`encodeAs_readsBack`). -/
theorem decodeOfEncodeIsTheInstruction : Obligations.DecodeOfEncodeIsTheInstruction := fun form cs _ rest hw =>
  (encodeAs_readsBack form cs hw).decode_taken (pre := []) (p := noPrefixes) (fun _ => rfl) rfl rfl rfl rfl rest

/-! ### A step over a form that is no instruction -/

/-- A step over what is #UD, of at most 15 bytes, raises it (R106, R119; 60_exceptions R393 step 1). -/
theorem Machine.step_undefined {s : State} {d : Decoded} {len : Nat} (hd : decode s.plat.codeSize s.fetchBytes = .ok (d, len))
    (hrun : runDecoded d s = (undefinedOpcode s).outcome) (hl : len ≤ 15) : step s = .fault (.ud s) := by
  have hc : lengthCheck len s = .ok () := lengthCheck_ok.mpr hl
  simp only [step, hd, hc, hrun]
  rfl

/-- Settles O4: a byte put before bytes that are read back is only noted; the maps then decide whether the opcode takes it
(`opcodeTable_agree`). -/
theorem prefixesBeforeInstructions : Obligations.PrefixesBeforeInstructions := by
  refine ⟨fun cs i rest hw => ?_, fun s len hl => ⟨fun hd => step_undefined hd rfl hl, fun hd => step_undefined hd rfl hl⟩⟩
  have hread : ReadsBack cs (encode cs i) i := encodeAs_readsBack canonicalForm cs hw
  refine ⟨?lock, ?f2, fun hsys => ?reserved66, fun hsys => ?taken66, hread.decode_f3 rest⟩
  case lock =>
    exact hread.decode_taken (pre := [0xF0#8]) (p := { noPrefixes with lock := true }) (fun _ => rfl) rfl rfl rfl rfl rest
  case f2 =>
    exact hread.decode_reserved (pre := [0xF2#8]) (p := { noPrefixes with f2 := true }) (fun _ => rfl) rfl rfl rfl rfl rest
  case reserved66 =>
    exact hread.decode_reserved (pre := [0x66#8]) (p := { noPrefixes with p66 := true }) (fun _ => rfl) rfl rfl rfl
      (by rw [decide_eq_false hsys]; rfl) rest
  case taken66 =>
    exact hread.decode_taken (pre := [0x66#8]) (p := { noPrefixes with p66 := true }) (fun _ => rfl) rfl rfl rfl
      (by rw [decide_eq_true hsys]; rfl) rest

/-- Settles O2: eleven closed strings, each decoded by evaluation. -/
theorem writtenBytesDecode : Obligations.WrittenBytesDecode := by
  unfold Obligations.WrittenBytesDecode
  decide

end Sys2Proof
end

section
/-! PROOFS. MMX data transfer: what the storing frame leaves in a register and in memory (40 R141, R143; 48 R351), and MOVD, MOVQ and
MOVNTQ in every form. -/

namespace Sys2Proof.Machine

/-! ### The r/m destination in memory -/

/-- A reachable memory destination is written: its bytes, and nothing else of the state (20_memory R70). -/
theorem rmWrite_mem_ok {w n : Nat} {al : Bool} {f : State → Reg → BitVec w → State} {s : State} {m : Mem} {v : BitVec w}
    (h : reachable .write n al s (.mem m) = true) :
    rmWrite n al f s (.mem m) v = .ok { s with mem := s.mem.writeBytes (s.lin m) (valueBytes n v) } :=
  store_ok.mpr ⟨Bool.and_eq_true_iff.mp h, rfl⟩

/-- Bytes stored with the MMX transition change nothing outside them. -/
theorem mmxWritesMem_writeBytes {w : Nat} (s : State) (a : Addr) (n : Nat) (v : BitVec w) :
    MmxWritesMem s { s with mem := s.mem.writeBytes a (valueBytes n v) }.mmxEnter (addresses a n) :=
  ⟨sameMemBut_writeBytes s a v, SameGpr.refl s, SameFpr.refl s, mmxEntered_mmxEnter (SameX87.refl s), SameXmm.refl s, rfl, rfl,
    SameSystem.refl s, SameDraws.refl s⟩

/-! ### The MMX storing frame, by its destination -/

section
variable {i : Instr} {since : Since} {s : State}

/-- A general register as destination is written whole, with the MMX transition. -/
theorem mmxStore_completes_gpr {n : Nat} {q : Reg} {v : Dword}
    (e : exec i s = (mmxStore since n State.setX s (.reg q) v).outcome) (hc : mmxReady since s = true) :
    ∃ t, exec i s = .next t ∧ t.x q = v ∧ MmxWritesGpr s t q :=
  ⟨(s.setX q v).mmxEnter, by rw [e, mmxStore_ok.mpr ⟨hc, _, rfl, rfl⟩, outcome_ok],
    by rw [State.mmxEnter_x, State.setX_x_self], mmxWritesGpr_setX s q v⟩

/-- An MMX register as destination is written whole, with the MMX transition. -/
theorem mmxStore_completes_mm {n : Nat} {q : Reg} {v : Qword}
    (e : exec i s = (mmxStore since n State.setMm s (.reg q) v).outcome) (hc : mmxReady since s = true) :
    MmxCompletes i s q fun x => x = v :=
  ⟨(s.setMm q v).mmxEnter, by rw [e, mmxStore_ok.mpr ⟨hc, _, rfl, rfl⟩, outcome_ok],
    by rw [State.mmxEnter_mm, State.setMm_mm_self], writesMm_setMm s q v⟩

/-- A memory destination holds the value, with the MMX transition, and no byte outside it is changed. -/
theorem mmxStore_completes_mem {w n : Nat} {f : State → Reg → BitVec w → State} {m : Mem} {v : BitVec w}
    (e : exec i s = (mmxStore since n f s (.mem m) v).outcome) (hm : s.mem.wf = true) (hn : n ≤ 2 ^ 32)
    (hc : mmxReady since s = true) (hr : reachable .write n false s (.mem m) = true) :
    ∃ t, exec i s = .next t ∧ Holds t (s.lin m) n v ∧ MmxWritesMem s t (addresses (s.lin m) n) :=
  ⟨{ s with mem := s.mem.writeBytes (s.lin m) (valueBytes n v) }.mmxEnter,
    by rw [e, mmxStore_ok.mpr ⟨hc, _, rmWrite_mem_ok hr, rfl⟩, outcome_ok],
    holds_writeBytes hm (s.lin m) v hn, mmxWritesMem_writeBytes s (s.lin m) n v⟩

end

/-! ### MOVD's two halves -/

/-- A zero-extended doubleword: itself below, zeros above (40 R140). -/
theorem setWidth_halves (v : Dword) : (v.setWidth 64).extractLsb' 0 32 = v ∧ (v.setWidth 64).extractLsb' 32 32 = 0#32 := by
  have hsplit : v.setWidth 64 = 0#32 ++ v := BitVec.setWidth_eq_append (by decide)
  rw [hsplit]
  exact ⟨BitVec.extractLsb'_append_eq_right, BitVec.extractLsb'_append_eq_left⟩

/-- MOVD out of an MMX register runs in the storing frame on the low doubleword (40 R141). -/
theorem exec_movdStore (r : Reg) (rm : RM) (s : State) :
    exec (.movdStore r rm) s = (mmxStore .base 4 State.setX s rm ((s.mm r).extractLsb' 0 32)).outcome := by
  rw [← setWidth_eq_low]; rfl

/-! ### The statements -/

/-- Settles O23: the loads by the binary frame, the register forms of the stores by the storing frame. -/
theorem mmxMovesToRegisters : Obligations.MmxMovesToRegisters := by
  refine ⟨fun s r rm hc => ⟨fun hr => ?movdLoad, fun hr => ?movqLoad⟩, fun s r q hc => ⟨?movdStore, ?movqStore⟩⟩
  case movdLoad => exact mmxCompletes_binary rfl hc (gp32_ok hr) (setWidth_halves _)
  case movqLoad => exact mmxCompletes_binary rfl hc (mm64_ok hr) rfl
  case movdStore => exact mmxStore_completes_gpr (exec_movdStore r (.reg q) s) hc
  case movqStore => exact mmxStore_completes_mm rfl hc

/-- Settles O24: each of the three is the storing frame with a memory destination. -/
theorem mmxStoreToMemory : Obligations.MmxStoreToMemory := by
  refine fun s r m hm => ⟨?movd, ?movq, ?movntq⟩
  case movd => exact mmxStore_completes_mem (exec_movdStore r (.mem m) s) hm (by decide)
  case movq => exact mmxStore_completes_mem rfl hm (by decide)
  case movntq => exact mmxStore_completes_mem rfl hm (by decide)

end Sys2Proof.Machine
end

section
/-! PROOFS. MMX arithmetic: the elements of an element-wise result (41 R150), what each element operation computes exactly (00_scope R13;
41 R151 to R167; 45 R250), and the instructions of 41_mmx_arithmetic. -/

namespace Sys2Proof.Machine

/-! ### The element-wise scheme (41 R150) -/

theorem elem_mapBytes {g : Byte → Byte → Byte} {d v : Qword} {i : Nat} (h : i < 8) :
    elem 8 (mapBytes g d v) i = g (elem 8 d i) (elem 8 v i) :=
  elem_ofBytes _ h

theorem elem_mapWords {g : Word → Word → Word} {d v : Qword} {i : Nat} (h : i < 4) :
    elem 16 (mapWords g d v) i = g (elem 16 d i) (elem 16 v i) :=
  elem_ofWords _ h

theorem elem_mapDwords {g : Dword → Dword → Dword} {d v : Qword} {i : Nat} (h : i < 2) :
    elem 32 (mapDwords g d v) i = g (elem 32 d i) (elem 32 v i) :=
  elem_ofDwords _ h

/-! ### An exact integer kept in w bits -/

/-- Read as unsigned, it is taken modulo 2^w. -/
theorem toNat_ofInt_eq_emod (w : Nat) (x : Int) : ((BitVec.ofInt w x).toNat : Int) = x % 2 ^ w := by
  have hw : (2 ^ w : Int) ≠ 0 := by positivity
  rw [BitVec.toNat_ofInt, Nat.cast_pow, Nat.cast_ofNat, Int.toNat_of_nonneg (Int.emod_nonneg x hw)]

/-- A slice of it: division by 2^k drops the bits below (00_scope R12). -/
theorem extract_ofInt {n k w : Nat} (h : k + w ≤ n) (x : Int) :
    (BitVec.ofInt n x).extractLsb' k w = BitVec.ofInt w (x / 2 ^ k) := by
  obtain ⟨m, rfl⟩ := Nat.exists_eq_add_of_le h
  have hk : (2 ^ k : Int) ≠ 0 := by positivity
  have hmod : x % 2 ^ (k + w + m) = x - 2 ^ k * (2 ^ w * (2 ^ m * (x / 2 ^ (k + w + m)))) := by
    rw [Int.emod_def]
    ring
  apply BitVec.eq_of_toNat_eq
  zify
  rw [BitVec.extractLsb'_toNat, Nat.shiftRight_eq_div_pow]
  push_cast
  rw [toNat_ofInt_eq_emod, toNat_ofInt_eq_emod, hmod, Int.sub_mul_ediv_left _ _ hk, Int.sub_mul_emod_self_left]

/-- Signed saturation clamps to the signed range (00_scope R13). -/
theorem toInt_satS {w : Nat} (hw : 0 < w) (x : Int) : (satS w x).toInt = max (-2 ^ (w - 1)) (min (2 ^ (w - 1) - 1) x) := by
  have hpos : (0 : Int) < 2 ^ (w - 1) := by positivity
  unfold satS
  split
  case isTrue hlow =>
    rw [BitVec.toInt_intMin_of_pos hw]
    omega
  case isFalse hlow =>
    split
    case isTrue hhigh =>
      rw [BitVec.toInt_intMax]
      omega
    case isFalse hhigh =>
      rw [BitVec.toInt_ofInt_eq_self hw (by omega) (by omega)]
      omega

/-- Unsigned saturation clamps to the unsigned range (00_scope R13). -/
theorem toNat_satU (w : Nat) (x : Int) : ((satU w x).toNat : Int) = max 0 (min (2 ^ w - 1) x) := by
  have hpos : (0 : Int) < 2 ^ w := by positivity
  unfold satU
  split
  case isTrue hlow =>
    rw [BitVec.toNat_zero]
    omega
  case isFalse hlow =>
    split
    case isTrue hhigh =>
      rw [BitVec.toNat_allOnes, Nat.cast_sub Nat.one_le_two_pow, Nat.cast_pow, Nat.cast_ofNat, Nat.cast_one]
      omega
    case isFalse hhigh =>
      rw [toNat_ofInt_eq_emod, Int.emod_eq_of_lt (by omega) (by omega)]
      omega

/-! ### Additions and subtractions of one element -/

section
variable {w : Nat} (a b : BitVec w)

/-- 41 R151 to R153. -/
theorem toNat_addWrap : (addWrap a b).toNat = (a.toNat + b.toNat) % 2 ^ w := BitVec.toNat_add a b

/-- 41 R158 to R160: destination minus source. -/
theorem toNat_subWrap : ((subWrap a b).toNat : Int) = (a.toNat - b.toNat : Int) % 2 ^ w := by
  have hround : (2 ^ w - b.toNat + a.toNat : Int) = (a.toNat - b.toNat) + 2 ^ w := by ring
  rw [subWrap, BitVec.toNat_sub]
  push_cast [b.isLt.le]
  rw [hround, Int.add_emod_right]

/-- 41 R154, R155. -/
theorem toInt_addSatS (hw : 0 < w) : (addSatS a b).toInt = max (-2 ^ (w - 1)) (min (2 ^ (w - 1) - 1) (a.toInt + b.toInt)) :=
  toInt_satS hw _

/-- 41 R161, R162. -/
theorem toInt_subSatS (hw : 0 < w) : (subSatS a b).toInt = max (-2 ^ (w - 1)) (min (2 ^ (w - 1) - 1) (a.toInt - b.toInt)) :=
  toInt_satS hw _

/-- 41 R156, R157: a sum is never below the range. -/
theorem toNat_addSatU : (addSatU a b).toNat = min (2 ^ w - 1) (a.toNat + b.toNat) := by
  have hclamp := toNat_satU w (a.toNat + b.toNat)
  have hpos : (0 : Int) < 2 ^ w := by positivity
  rw [addSatU]
  zify [Nat.one_le_two_pow (n := w)]
  omega

/-- 41 R163, R164: a difference is never above the range. -/
theorem toNat_subSatU : ((subSatU a b).toNat : Int) = max 0 (a.toNat - b.toNat : Int) := by
  have hclamp := toNat_satU w (a.toNat - b.toNat)
  have ha : (a.toNat : Int) < 2 ^ w := mod_cast a.isLt
  rw [subSatU]
  omega

end

/-! ### Products of words -/

/-- 41 R165: the exact product fits in 32 bits signed, so its upper half fits in 16. -/
theorem toInt_mulHighS (a b : Word) : (mulHighS a b).toInt = a.toInt * b.toInt / 2 ^ 16 := by
  have hle : a.toInt * b.toInt ≤ 2 ^ 30 := BitVec.toInt_mul_toInt_le
  have hge : -2 ^ 30 ≤ a.toInt * b.toInt := BitVec.le_toInt_mul_toInt
  rw [mulHighS, extract_ofInt (by decide), BitVec.toInt_ofInt_eq_self (by decide) (by omega) (by omega)]

/-- 41 R166. -/
theorem toNat_mulLow (a b : Word) : ((mulLow a b).toNat : Int) = a.toInt * b.toInt % 2 ^ 16 := by
  rw [mulLow, extract_ofInt (by decide), pow_zero, Int.ediv_one, toNat_ofInt_eq_emod]

/-- 45 R250: the exact product fits in 32 bits unsigned. -/
theorem toNat_mulHighU (a b : Word) : (mulHighU a b).toNat = a.toNat * b.toNat / 2 ^ 16 := by
  have hlt : a.toNat * b.toNat < 2 ^ 32 := Nat.mul_lt_mul'' (c := 2 ^ 16) (d := 2 ^ 16) a.isLt b.isLt
  rw [mulHighU, BitVec.extractLsb'_toNat, BitVec.toNat_ofNat, Nat.shiftRight_eq_div_pow, Nat.mod_eq_of_lt hlt]
  omega

/-- 41 R167: doubleword i is the sum of the products of words 2i and 2i + 1, modulo 2^32. -/
theorem toNat_elem_madd (d v : Qword) {i : Nat} (h : i < 2) :
    ((elem 32 (madd d v) i).toNat : Int) =
      ((elem 16 d (2 * i)).toInt * (elem 16 v (2 * i)).toInt +
        (elem 16 d (2 * i + 1)).toInt * (elem 16 v (2 * i + 1)).toInt) % 2 ^ 32 := by
  rw [madd, elem_ofDwords _ h, maddPair, toNat_ofInt_eq_emod]

/-! ### The statements -/

/-- Settles O26: each instruction is the MMX frame over a map of elements, and the element operation is exact modulo its width. -/
theorem wrapAddSubResults : Obligations.WrapAddSubResults := by
  intro s r rm hc hr
  have hv := mm64_ok hr
  refine ⟨?paddb, ?paddw, ?paddd, ?psubb, ?psubw, ?psubd⟩
  case paddb => exact mmxCompletes_binary rfl hc hv fun i hi => by rw [elem_mapBytes hi, toNat_addWrap]
  case paddw => exact mmxCompletes_binary rfl hc hv fun i hi => by rw [elem_mapWords hi, toNat_addWrap]
  case paddd => exact mmxCompletes_binary rfl hc hv fun i hi => by rw [elem_mapDwords hi, toNat_addWrap]
  case psubb => exact mmxCompletes_binary rfl hc hv fun i hi => by rw [elem_mapBytes hi, toNat_subWrap]
  case psubw => exact mmxCompletes_binary rfl hc hv fun i hi => by rw [elem_mapWords hi, toNat_subWrap]
  case psubd => exact mmxCompletes_binary rfl hc hv fun i hi => by rw [elem_mapDwords hi, toNat_subWrap]

/-- Settles O27: the saturations are clamps (`toInt_satS`, `toNat_satU`), and unsigned sums and differences leave the range on one side
only. -/
theorem saturationResults : Obligations.SaturationResults := by
  refine ⟨fun s r rm hc hr => ⟨?paddsb, ?paddsw, ?psubsb, ?psubsw⟩, fun s r rm hc hr => ⟨?paddusb, ?paddusw, ?psubusb, ?psubusw⟩⟩
  case paddsb =>
    exact mmxCompletes_binary rfl hc (mm64_ok hr) fun i hi => by rw [elem_mapBytes hi, toInt_addSatS _ _ (by decide)]; rfl
  case paddsw =>
    exact mmxCompletes_binary rfl hc (mm64_ok hr) fun i hi => by rw [elem_mapWords hi, toInt_addSatS _ _ (by decide)]; rfl
  case psubsb =>
    exact mmxCompletes_binary rfl hc (mm64_ok hr) fun i hi => by rw [elem_mapBytes hi, toInt_subSatS _ _ (by decide)]; rfl
  case psubsw =>
    exact mmxCompletes_binary rfl hc (mm64_ok hr) fun i hi => by rw [elem_mapWords hi, toInt_subSatS _ _ (by decide)]; rfl
  case paddusb => exact mmxCompletes_binary rfl hc (mm64_ok hr) fun i hi => by rw [elem_mapBytes hi, toNat_addSatU]; rfl
  case paddusw => exact mmxCompletes_binary rfl hc (mm64_ok hr) fun i hi => by rw [elem_mapWords hi, toNat_addSatU]; rfl
  case psubusb => exact mmxCompletes_binary rfl hc (mm64_ok hr) fun i hi => by rw [elem_mapBytes hi, toNat_subSatU]
  case psubusw => exact mmxCompletes_binary rfl hc (mm64_ok hr) fun i hi => by rw [elem_mapWords hi, toNat_subSatU]

/-- Settles O28: three element-wise products, and PMADDWD, whose doublewords are pair sums. -/
theorem multiplyResults : Obligations.MultiplyResults := by
  intro s r rm hr
  have hv := mm64_ok hr
  refine ⟨fun hc => ⟨?pmulhw, ?pmullw, ?pmaddwd⟩, fun hc => ?pmulhuw⟩
  case pmulhw => exact mmxCompletes_binary rfl hc hv fun i hi => by rw [elem_mapWords hi, toInt_mulHighS]
  case pmullw => exact mmxCompletes_binary rfl hc hv fun i hi => by rw [elem_mapWords hi, toNat_mulLow]
  case pmaddwd => exact mmxCompletes_binary rfl hc hv fun i hi => toNat_elem_madd _ _ hi
  case pmulhuw => exact mmxCompletes_binary rfl hc hv fun i hi => by rw [elem_mapWords hi, toNat_mulHighU]

end Sys2Proof.Machine
end

section
/-! PROOFS. MMX comparison and logic: what one element comparison gives (42 R180 to R186), the bits of a logical result (42 R188 to
R191), and the instructions of 42_mmx_compare_logical. -/

namespace Sys2Proof.Machine

/-! ### One element compared, one bit combined -/

section
variable {w : Nat} (a b : BitVec w)

/-- 42 R180: the mask of a decided relation. -/
theorem mask_decide (p : Prop) [Decidable p] : mask w (decide p) = if p then BitVec.allOnes w else 0#w := by
  by_cases hp : p
  · rw [mask, decide_eq_true hp, if_pos hp, if_pos rfl]
  · rw [mask, decide_eq_false hp, if_neg hp, if_neg Bool.false_ne_true]

/-- 42 R181 to R183. -/
theorem cmpEq_eq_ite : cmpEq a b = if a = b then BitVec.allOnes w else 0#w := by
  rw [cmpEq, beq_eq_decide, mask_decide]

/-- 42 R184 to R186: signed, the destination's element above the source's. -/
theorem cmpGt_eq_ite : cmpGt a b = if b.toInt < a.toInt then BitVec.allOnes w else 0#w :=
  mask_decide _

/-- 42 R189: inside the width, the complement is of the destination's bit. -/
theorem getLsbD_not_and {k : Nat} (h : k < w) : (~~~a &&& b).getLsbD k = (!a.getLsbD k && b.getLsbD k) := by
  rw [BitVec.getLsbD_and, BitVec.getLsbD_not, decide_eq_true h, Bool.true_and]

end

/-! ### The statement -/

/-- Settles O29: the comparisons are the MMX frame over a map of elements, the logical instructions the same frame over whole operands,
read bit by bit. The closing `rfl` evaluates `BitVec.allOnes` at the element's width. -/
theorem compareAndLogicalResults : Obligations.CompareAndLogicalResults := by
  refine ⟨fun s r rm hc hr => ⟨?pcmpeqb, ?pcmpeqw, ?pcmpeqd, ?pcmpgtb, ?pcmpgtw, ?pcmpgtd⟩,
    fun s r rm hc hr => ⟨?pand, ?pandn, ?por, ?pxor⟩⟩
  case pcmpeqb => exact mmxCompletes_binary rfl hc (mm64_ok hr) fun i hi => by rw [elem_mapBytes hi, cmpEq_eq_ite]; rfl
  case pcmpeqw => exact mmxCompletes_binary rfl hc (mm64_ok hr) fun i hi => by rw [elem_mapWords hi, cmpEq_eq_ite]; rfl
  case pcmpeqd => exact mmxCompletes_binary rfl hc (mm64_ok hr) fun i hi => by rw [elem_mapDwords hi, cmpEq_eq_ite]; rfl
  case pcmpgtb => exact mmxCompletes_binary rfl hc (mm64_ok hr) fun i hi => by rw [elem_mapBytes hi, cmpGt_eq_ite]; rfl
  case pcmpgtw => exact mmxCompletes_binary rfl hc (mm64_ok hr) fun i hi => by rw [elem_mapWords hi, cmpGt_eq_ite]; rfl
  case pcmpgtd => exact mmxCompletes_binary rfl hc (mm64_ok hr) fun i hi => by rw [elem_mapDwords hi, cmpGt_eq_ite]; rfl
  case pand => exact mmxCompletes_binary rfl hc (mm64_ok hr) fun _ _ => BitVec.getLsbD_and
  case pandn => exact mmxCompletes_binary rfl hc (mm64_ok hr) fun _ hk => getLsbD_not_and _ _ hk
  case por => exact mmxCompletes_binary rfl hc (mm64_ok hr) fun _ _ => BitVec.getLsbD_or
  case pxor => exact mmxCompletes_binary rfl hc (mm64_ok hr) fun _ _ => BitVec.getLsbD_xor

end Sys2Proof.Machine
end

section
/-! PROOFS. MMX shifts: what a shift of one element gives as a number (43 R202), the elements of a shifted operand (43 R200), and the
instructions of 43_mmx_shift, by an operand and by an immediate. -/

namespace Sys2Proof.Machine

/-! ### One element shifted (43 R202) -/

section
variable {w : Nat} (e : BitVec w) (c : Nat)

/-- Multiplied by 2^c modulo 2^w; a count at or above the width leaves nothing. -/
theorem toNat_shl : (shl e c).toNat = if w ≤ c then 0 else e.toNat * 2 ^ c % 2 ^ w := by
  unfold shl
  split
  case isTrue => exact BitVec.toNat_zero
  case isFalse => rw [BitVec.toNat_shiftLeft, Nat.shiftLeft_eq]

/-- Divided by 2^c, read as unsigned; a count at or above the width leaves nothing. -/
theorem toNat_shr : (shr e c).toNat = if w ≤ c then 0 else e.toNat / 2 ^ c := by
  unfold shr
  split
  case isTrue => exact BitVec.toNat_zero
  case isFalse => rw [BitVec.toNat_ushiftRight, Nat.shiftRight_eq_div_pow]

/-- Divided by 2^c, read as signed and rounded down; a count above w - 1 acts as w - 1. -/
theorem toInt_sar : (sar e c).toInt = e.toInt / 2 ^ min c (w - 1) := by
  rw [sar, BitVec.toInt_sshiftRight, Int.shiftRight_eq_div_pow, Nat.cast_pow, Nat.cast_ofNat]

end

/-! ### The elements of a shifted operand (43 R200) -/

theorem elem_shiftWords {g : Word → Nat → Word} {c : Nat} {d : Qword} {i : Nat} (h : i < 4) :
    elem 16 (shiftWords g c d) i = g (elem 16 d i) c :=
  elem_ofWords _ h

theorem elem_shiftDwords {g : Dword → Nat → Dword} {c : Nat} {d : Qword} {i : Nat} (h : i < 2) :
    elem 32 (shiftDwords g c d) i = g (elem 32 d i) c :=
  elem_ofDwords _ h

/-! ### The statements -/

/-- Settles O30: each instruction is the MMX frame over one shift of every element, with the whole source operand as the count. -/
theorem shiftByOperandResults : Obligations.ShiftByOperandResults := by
  intro s r rm hc hr
  have hv := mm64_ok hr
  refine ⟨?psllw, ?pslld, ?psllq, ?psrlw, ?psrld, ?psrlq, ?psraw, ?psrad⟩
  case psllw => exact mmxCompletes_binary rfl hc hv fun i hi => by rw [elem_shiftWords hi, toNat_shl]
  case pslld => exact mmxCompletes_binary rfl hc hv fun i hi => by rw [elem_shiftDwords hi, toNat_shl]
  case psllq => exact mmxCompletes_binary rfl hc hv (toNat_shl _ _)
  case psrlw => exact mmxCompletes_binary rfl hc hv fun i hi => by rw [elem_shiftWords hi, toNat_shr]
  case psrld => exact mmxCompletes_binary rfl hc hv fun i hi => by rw [elem_shiftDwords hi, toNat_shr]
  case psrlq => exact mmxCompletes_binary rfl hc hv (toNat_shr _ _)
  case psraw => exact mmxCompletes_binary rfl hc hv fun i hi => by rw [elem_shiftWords hi, toInt_sar]
  case psrad => exact mmxCompletes_binary rfl hc hv fun i hi => by rw [elem_shiftDwords hi, toInt_sar]

/-- Settles O31: the same shifts of every element, in the frame of one MMX register, with the immediate as the count. -/
theorem shiftByImmediateResults : Obligations.ShiftByImmediateResults := by
  intro s q imm hc
  refine ⟨?psllw, ?pslld, ?psllq, ?psrlw, ?psrld, ?psrlq, ?psraw, ?psrad⟩
  case psllw => exact mmxCompletes_unary rfl hc fun i hi => by rw [elem_shiftWords hi, toNat_shl]
  case pslld => exact mmxCompletes_unary rfl hc fun i hi => by rw [elem_shiftDwords hi, toNat_shl]
  case psllq => exact mmxCompletes_unary rfl hc (toNat_shl _ _)
  case psrlw => exact mmxCompletes_unary rfl hc fun i hi => by rw [elem_shiftWords hi, toNat_shr]
  case psrld => exact mmxCompletes_unary rfl hc fun i hi => by rw [elem_shiftDwords hi, toNat_shr]
  case psrlq => exact mmxCompletes_unary rfl hc (toNat_shr _ _)
  case psraw => exact mmxCompletes_unary rfl hc fun i hi => by rw [elem_shiftWords hi, toInt_sar]
  case psrad => exact mmxCompletes_unary rfl hc fun i hi => by rw [elem_shiftDwords hi, toInt_sar]

end Sys2Proof.Machine
end

section
/-! PROOFS. MMX pack, unpack and EMMS: where the elements of a packed and of an interleaved result come from (44 R220 to R222, R228),
what EMMS leaves (44 R236), and the instructions of 44_mmx_pack_unpack_emms. -/

namespace Sys2Proof.Machine

/-! ### One sequence made of two: one after the other, and alternating -/

section
variable {α : Type} (p q : Nat → α)

/-- The first of two sequences is read below `n`, the second from `n` on. -/
theorem ite_consecutive {n i : Nat} (h : i < n) :
    (if i < n then p i else q (i - n)) = p i ∧ (if n + i < n then p (n + i) else q (n + i - n)) = q i := by
  constructor
  · rw [if_pos h]
  · rw [if_neg (by omega), Nat.add_sub_cancel_left]

/-- The first of two sequences is read at the even numbers, the second at the odd ones. -/
theorem ite_alternating (i : Nat) :
    (if 2 * i % 2 = 0 then p (2 * i / 2) else q (2 * i / 2)) = p i ∧
      (if (2 * i + 1) % 2 = 0 then p ((2 * i + 1) / 2) else q ((2 * i + 1) / 2)) = q i := by
  constructor
  · rw [if_pos (by omega), show 2 * i / 2 = i by omega]
  · rw [if_neg (by omega), show (2 * i + 1) / 2 = i by omega]

end

/-! ### The elements of a packed result: the destination's low, the source's high (44 R220 to R222) -/

section
variable {d v : Qword} {i : Nat}

theorem elem_packDwords (h : i < 2) :
    elem 16 (packDwords d v) i = satS 16 (elem 32 d i).toInt ∧ elem 16 (packDwords d v) (2 + i) = satS 16 (elem 32 v i).toInt := by
  rw [packDwords, elem_ofWords _ (by omega), elem_ofWords _ (by omega)]
  obtain ⟨hlow, hhigh⟩ := ite_consecutive (elem 32 d) (elem 32 v) h
  exact ⟨by rw [hlow], by rw [hhigh]⟩

theorem elem_packWords {sat : Int → Byte} (h : i < 4) :
    elem 8 (packWords sat d v) i = sat (elem 16 d i).toInt ∧ elem 8 (packWords sat d v) (4 + i) = sat (elem 16 v i).toInt := by
  rw [packWords, elem_ofBytes _ (by omega), elem_ofBytes _ (by omega)]
  obtain ⟨hlow, hhigh⟩ := ite_consecutive (elem 16 d) (elem 16 v) h
  exact ⟨by rw [hlow], by rw [hhigh]⟩

end

/-! ### The elements of an interleaved result: the destination's at 2i, the source's at 2i + 1 (44 R228) -/

section
variable {w base i : Nat} {d : Qword} {v : BitVec w}

theorem elem_interleaveBytes (h : i < 4) :
    elem 8 (interleaveBytes base d v) (2 * i) = elem 8 d (base + i) ∧
      elem 8 (interleaveBytes base d v) (2 * i + 1) = elem 8 v (base + i) := by
  rw [interleaveBytes, elem_ofBytes _ (by omega), elem_ofBytes _ (by omega)]
  exact ite_alternating (fun j => elem 8 d (base + j)) (fun j => elem 8 v (base + j)) i

theorem elem_interleaveWords (h : i < 2) :
    elem 16 (interleaveWords base d v) (2 * i) = elem 16 d (base + i) ∧
      elem 16 (interleaveWords base d v) (2 * i + 1) = elem 16 v (base + i) := by
  rw [interleaveWords, elem_ofWords _ (by omega), elem_ofWords _ (by omega)]
  exact ite_alternating (fun j => elem 16 d (base + j)) (fun j => elem 16 v (base + j)) i

/-- Each half of a quadword is one doubleword, so the scheme has the one pair 0. -/
theorem elem_interleaveDwords :
    elem 32 (interleaveDwords base d v) 0 = elem 32 d base ∧ elem 32 (interleaveDwords base d v) 1 = elem 32 v base :=
  ⟨elem_ofDwords _ (by decide), elem_ofDwords _ (by decide)⟩

end

/-! ### EMMS (44 R236) -/

theorem exec_emms {s : State} (hc : mmxReady .base s = true) : exec .emms s = .next s.emptyMmx :=
  outcome_next.mpr (bind_ok.mpr ⟨(), mmxCheck_ok.mpr hc, rfl⟩)

/-! ### The statements -/

/-- Settles O32: each instruction is the MMX frame over a pack or an interleaving. A pack clamps each element (`toInt_satS`, `toNat_satU`);
the low unpacks interleave from element 0 of a 4-byte source, which is itself the one doubleword PUNPCKLDQ takes. -/
theorem packAndUnpackResults : Obligations.PackAndUnpackResults := by
  refine ⟨fun s r rm hc hr => ⟨?packssdw, ?packsswb, ?packuswb⟩, fun s r rm hc =>
    ⟨fun hr => ⟨?punpckhbw, ?punpckhwd, ?punpckhdq⟩, fun hr => ⟨?punpcklbw, ?punpcklwd, ?punpckldq⟩⟩⟩
  case packssdw =>
    refine mmxCompletes_binary rfl hc (mm64_ok hr) fun i hi => ?_
    obtain ⟨hlow, hhigh⟩ := elem_packDwords hi
    rw [hlow, hhigh]
    exact ⟨toInt_satS (by decide) _, toInt_satS (by decide) _⟩
  case packsswb =>
    refine mmxCompletes_binary rfl hc (mm64_ok hr) fun i hi => ?_
    obtain ⟨hlow, hhigh⟩ := elem_packWords hi
    rw [hlow, hhigh]
    exact ⟨toInt_satS (by decide) _, toInt_satS (by decide) _⟩
  case packuswb =>
    refine mmxCompletes_binary rfl hc (mm64_ok hr) fun i hi => ?_
    obtain ⟨hlow, hhigh⟩ := elem_packWords hi
    rw [hlow, hhigh]
    exact ⟨toNat_satU 8 _, toNat_satU 8 _⟩
  case punpckhbw => exact mmxCompletes_binary rfl hc (mm64_ok hr) fun _ hi => elem_interleaveBytes hi
  case punpckhwd => exact mmxCompletes_binary rfl hc (mm64_ok hr) fun _ hi => elem_interleaveWords hi
  case punpckhdq => exact mmxCompletes_binary rfl hc (mm64_ok hr) elem_interleaveDwords
  case punpcklbw =>
    exact mmxCompletes_binary rfl hc (mm32_ok hr) fun i hi => by simpa only [Nat.zero_add] using elem_interleaveBytes (base := 0) hi
  case punpcklwd =>
    exact mmxCompletes_binary rfl hc (mm32_ok hr) fun i hi => by simpa only [Nat.zero_add] using elem_interleaveWords (base := 0) hi
  case punpckldq =>
    obtain ⟨hdest, hsrc⟩ := elem_interleaveDwords (base := 0) (d := s.mm r) (v := srcMm32 s rm)
    exact mmxCompletes_binary rfl hc (mm32_ok hr) ⟨hdest, hsrc.trans extract_all⟩

/-- Settles O25: EMMS rewrites the tag word and clears TOS; every other field of the state it leaves is the field it found. -/
theorem emmsEmptiesTheTags : Obligations.EmmsEmptiesTheTags := fun s hc =>
  ⟨s.emptyMmx, exec_emms hc, State.emptyMmx_twr s, tosOf_clearTos s.swr, clearTos_rest s.swr, State.emptyMmx_cwr s,
    SameFpr.refl s, SameGpr.refl s, SameXmm.refl s, State.emptyMmx_mxcsr s, State.emptyMmx_eflags s, SameMem.refl s,
    SameSystem.refl s, SameDraws.refl s⟩

end Sys2Proof.Machine
end

section
/-! PROOFS. The integer instructions the Pentium III added: averages, extremes and sums of absolute differences (45 R241, R242, R245 to
R248, R251), words chosen by an immediate, the sign bits of a quadword (45 R243, R244, R249, R252). -/

namespace Sys2Proof.Machine

/-! ### Averages and extremes of one element -/

section
variable {w : Nat} (a b : BitVec w)

/-- 45 R241, R242: the sum has one bit more than its operands, the average fits in their width. -/
theorem toNat_average : (average a b).toNat = (a.toNat + b.toNat + 1) / 2 := by
  have ha : a.toNat < 2 ^ w := a.isLt
  have hb : b.toNat < 2 ^ w := b.isLt
  rw [average, BitVec.toNat_ofNat, Nat.mod_eq_of_lt (by omega)]

/-- 45 R245. -/
theorem toNat_maxU : (maxU a b).toNat = max a.toNat b.toNat := by
  unfold maxU
  split <;> omega

/-- 45 R247. -/
theorem toNat_minU : (minU a b).toNat = min a.toNat b.toNat := by
  unfold minU
  split <;> omega

/-- 45 R246. -/
theorem toInt_maxS : (maxS a b).toInt = max a.toInt b.toInt := by
  unfold maxS
  split <;> omega

/-- 45 R248. -/
theorem toInt_minS : (minS a b).toInt = min a.toInt b.toInt := by
  unfold minS
  split <;> omega

end

/-! ### The sum of absolute differences (45 R251) -/

theorem absDiff_eq_max_sub_min (a b : Byte) : absDiff a b = max a.toNat b.toNat - min a.toNat b.toNat := by
  unfold absDiff
  omega

theorem absDiff_le (a b : Byte) : absDiff a b ≤ 255 := by
  have ha : a.toNat < 2 ^ 8 := a.isLt
  have hb : b.toNat < 2 ^ 8 := b.isLt
  rw [absDiff_eq_max_sub_min]
  omega

/-- Eight differences of bytes add up to at most 8 * 255, so the low word holds the exact sum. -/
theorem toNat_sumAbsDiff (d v : Qword) :
    (sumAbsDiff d v).toNat = ((List.range 8).map fun i => absDiff (elem 8 d i) (elem 8 v i)).sum := by
  have hsum : ((List.range 8).map fun i => absDiff (elem 8 d i) (elem 8 v i)).sum ≤ 8 * 255 := by
    simpa using List.sum_le_card_nsmul ((List.range 8).map fun i => absDiff (elem 8 d i) (elem 8 v i)) 255
      (by simp [absDiff_le])
  rw [sumAbsDiff, BitVec.toNat_setWidth_of_le (by decide), BitVec.toNat_ofNat, Nat.mod_eq_of_lt (by omega)]

/-! ### Words chosen by the two-bit fields of an immediate -/

/-- An element as a number (00_scope R12). -/
theorem toNat_elem (w : Nat) {n : Nat} (v : BitVec n) (i : Nat) : (elem w v i).toNat = v.toNat / 2 ^ (w * i) % 2 ^ w := by
  rw [elem, BitVec.extractLsb'_toNat, Nat.shiftRight_eq_div_pow]

/-- Field i of an immediate is its digit i to the base 4. -/
theorem toNat_immField (imm : Byte) (i : Nat) : (elem 2 imm i).toNat = imm.toNat / 4 ^ i % 4 := by
  rw [toNat_elem, pow_mul, show 2 ^ 2 = 4 from rfl]

/-- PEXTRW and PINSRW read field 0 alone: the upper bits of the immediate are ignored (45 R243, R244). -/
theorem toNat_immField_zero (imm : Byte) : (imm.extractLsb' 0 2).toNat = imm.toNat % 4 := by
  rw [BitVec.extractLsb'_toNat, Nat.shiftRight_zero]

/-- 45 R252. -/
theorem elem_shuffleWords (imm : Byte) (v : Qword) {i : Nat} (h : i < 4) :
    elem 16 (shuffleWords imm v) i = elem 16 v (imm.toNat / 4 ^ i % 4) := by
  rw [shuffleWords, elem_ofWords _ h, toNat_immField]

/-- 45 R244. -/
theorem elem_insertWord (imm : Byte) (d : Qword) (v : Word) {i : Nat} (h : i < 4) :
    elem 16 (insertWord imm d v) i = if i = imm.toNat % 4 then v else elem 16 d i := by
  rw [insertWord, elem_ofWords _ h, toNat_immField_zero]

/-- 45 R243: the selected word is the whole value, so the upper half of the register gets zeros. -/
theorem toNat_extractWord (imm : Byte) (v : Qword) : (extractWord imm v).toNat = (elem 16 v (imm.toNat % 4)).toNat := by
  rw [extractWord, BitVec.toNat_setWidth_of_le (by decide), toNat_immField_zero]

/-! ### Sign bits (45 R249) -/

/-- One bit is appended per byte, the lowest byte's last: each of the seven appendings is read off, then the eight positions. -/
theorem getLsbD_signBits_low (v : Qword) {i : Nat} (h : i < 8) : (signBits v).getLsbD i = (elem 8 v i).getLsbD 7 := by
  rw [signBits, BitVec.getLsbD_setWidth]
  iterate 7 rw [BitVec.getLsbD_append]
  interval_cases i <;> simp

theorem getLsbD_signBits_high (v : Qword) {i : Nat} (h : 8 ≤ i) : (signBits v).getLsbD i = false := by
  rw [signBits, BitVec.getLsbD_setWidth, BitVec.getLsbD_of_ge _ _ h, Bool.and_false]

/-! ### The statements -/

/-- Settles O33: six maps of elements in the MMX frame, and PSADBW, whose sum never leaves the low word (`toNat_sumAbsDiff`). -/
theorem averageExtremeAndSadResults : Obligations.AverageExtremeAndSadResults := by
  intro s r rm hc hr
  have hv := mm64_ok hr
  refine ⟨?pavgb, ?pavgw, ?pmaxub, ?pminub, ?pmaxsw, ?pminsw, ?psadbw⟩
  case pavgb => exact mmxCompletes_binary rfl hc hv fun i hi => by rw [elem_mapBytes hi, toNat_average]
  case pavgw => exact mmxCompletes_binary rfl hc hv fun i hi => by rw [elem_mapWords hi, toNat_average]
  case pmaxub => exact mmxCompletes_binary rfl hc hv fun i hi => by rw [elem_mapBytes hi, toNat_maxU]
  case pminub => exact mmxCompletes_binary rfl hc hv fun i hi => by rw [elem_mapBytes hi, toNat_minU]
  case pmaxsw => exact mmxCompletes_binary rfl hc hv fun i hi => by rw [elem_mapWords hi, toInt_maxS]
  case pminsw => exact mmxCompletes_binary rfl hc hv fun i hi => by rw [elem_mapWords hi, toInt_minS]
  case psadbw => exact mmxCompletes_binary rfl hc hv (by simp only [toNat_sumAbsDiff, absDiff_eq_max_sub_min])

/-- Settles O34: PSHUFW and PINSRW by the binary frame, PEXTRW and PMOVMSKB by the frame to a general register. -/
theorem wordShuffleAndExtractResults : Obligations.WordShuffleAndExtractResults := by
  refine ⟨fun s r rm imm hc => ⟨fun hr => ?pshufw, fun hr => ?pinsrw⟩, fun s r q imm hc => ⟨?pextrw, ?pmovmskb⟩⟩
  case pshufw => exact mmxCompletes_binary rfl hc (mm64_ok hr) fun i hi => elem_shuffleWords imm _ hi
  case pinsrw => exact mmxCompletes_binary rfl hc (gp16_ok hr) fun i hi => elem_insertWord imm _ _ hi
  case pextrw =>
    obtain ⟨t, hnext, hval, hframe⟩ := mmxToGpr_completes (i := .pextrw r q imm) rfl hc
    exact ⟨t, hnext, by rw [hval, toNat_extractWord], hframe⟩
  case pmovmskb =>
    obtain ⟨t, hnext, hval, hframe⟩ := mmxToGpr_completes (i := .pmovmskb r q) rfl hc
    refine ⟨t, hnext, fun i hi => ?_, fun i hi => ?_, hframe⟩
    · rw [hval, getLsbD_signBits_low _ hi]
    · rw [hval, getLsbD_signBits_high _ hi]

end Sys2Proof.Machine
end

section
/-! PROOFS. XMM data movement: what the storing frame leaves in a register and in memory (46 R271), which parts MOVSS, the moves of halves
and MOVMSKPS write, and the instructions of 46_xmm_data_movement, with MOVNTPS and STMXCSR (48 R352, R339). -/

namespace Sys2Proof.Machine

/-! ### The XMM storing frame, by its destination -/

/-- Bytes stored with no MMX transition change nothing outside them. -/
theorem xmmWritesMem_writeBytes {w : Nat} (s : State) (a : Addr) (n : Nat) (v : BitVec w) :
    XmmWritesMem s { s with mem := s.mem.writeBytes a (valueBytes n v) } (addresses a n) :=
  ⟨sameMemBut_writeBytes s a v, SameGpr.refl s, SameFpr.refl s, SameX87.refl s, SameXmm.refl s, rfl, rfl, SameSystem.refl s, rfl⟩

section
variable {i : Instr} {w n : Nat} {al : Bool} {f : State → Reg → BitVec w → State} {s : State} {v : BitVec w}

/-- An XMM register as destination gets what the frame's write `f` puts there. -/
theorem xmmCompletes_store {q : Reg} {x : Xword} {P : Xword → Prop} (e : exec i s = (xmmStore n al f s (.reg q) v).outcome)
    (hc : xmmReady s = true) (hf : f s q v = s.setXm q x) (hP : P x) : XmmCompletes i s q P :=
  ⟨s.setXm q x, e.trans (outcome_next.mpr (xmmStore_ok.mpr ⟨hc, congrArg Except.ok hf⟩)),
    by rw [State.setXm_xm_self]; exact hP, writesXm_setXm s q x⟩

/-- A memory destination holds the value, and nothing outside its bytes is changed. -/
theorem xmmStore_completes_mem {m : Mem} (e : exec i s = (xmmStore n al f s (.mem m) v).outcome) (hm : s.mem.wf = true)
    (hn : n ≤ 2 ^ 32) (hc : xmmReady s = true) (hr : reachable .write n al s (.mem m) = true) :
    ∃ t, exec i s = .next t ∧ Holds t (s.lin m) n v ∧ XmmWritesMem s t (addresses (s.lin m) n) ∧ t.draws = s.draws :=
  ⟨{ s with mem := s.mem.writeBytes (s.lin m) (valueBytes n v) }, by rw [e, xmmStore_ok.mpr ⟨hc, rmWrite_mem_ok hr⟩, outcome_ok],
    holds_writeBytes hm (s.lin m) v hn, xmmWritesMem_writeBytes s (s.lin m) n v, rfl⟩

end

/-! ### The parts written -/

/-- Element 0 replaced, bits 127:32 kept (46 R272, R273). -/
theorem lowElem_parts (d : Xword) (v : Dword) :
    (lowElem d v).extractLsb' 0 32 = v ∧ (lowElem d v).extractLsb' 32 96 = d.extractLsb' 32 96 :=
  ⟨elem_lowElem_zero d v, lowElem_high d v⟩

/-- From memory, MOVSS writes zeros above the doubleword (46 R272; 90_conflicts C20). -/
theorem movssResult_mem_parts (m : Mem) (d : Xword) (v : Dword) :
    (movssResult (.mem m) d v).extractLsb' 0 32 = v ∧ (movssResult (.mem m) d v).extractLsb' 32 96 = 0#96 := by
  have hsplit : movssResult (.mem m) d v = 0#96 ++ v := BitVec.setWidth_eq_append (by decide)
  rw [hsplit]
  exact ⟨BitVec.extractLsb'_append_eq_right, BitVec.extractLsb'_append_eq_left⟩

/-- One bit is appended per element, the lowest element's last: each of the three appendings is read off, then the four positions. -/
theorem getLsbD_signMask_low (v : Xword) {k : Nat} (h : k < 4) : (signMask v).getLsbD k = (elem 32 v k).getLsbD 31 := by
  rw [signMask, BitVec.getLsbD_setWidth]
  iterate 3 rw [BitVec.getLsbD_append]
  interval_cases k <;> simp [elem]

theorem getLsbD_signMask_high (v : Xword) {k : Nat} (h : 4 ≤ k) : (signMask v).getLsbD k = false := by
  rw [signMask, BitVec.getLsbD_setWidth, BitVec.getLsbD_of_ge _ _ h, Bool.and_false]

/-! ### MOVMSKPS -/

/-- A general register write changes nothing else (10_state R41). -/
theorem writesGprOnly_setX (s : State) (r : Reg) (v : Dword) : WritesGprOnly s (s.setX r v) (· = r) :=
  ⟨fun _ hq => State.setX_x_ne s v hq, SameFpr.refl s, SameX87.refl s, SameXmm.refl s, rfl, rfl, SameMem.refl s, SameSystem.refl s⟩

theorem exec_movmskps {s : State} (r q : Reg) (hc : xmmReady s = true) :
    exec (.movmskps r q) s = .next (s.setX r (signMask (s.xm q))) :=
  outcome_next.mpr (bind_ok.mpr ⟨(), xmmCheck_ok.mpr hc, rfl⟩)

/-! ### The statements -/

/-- Settles O36: the loads and the moves between registers by the binary frame, the register forms of the stores by the storing frame,
and MOVMSKPS bit by bit. -/
theorem xmmMovesToRegisters : Obligations.XmmMovesToRegisters := by
  refine ⟨fun s r q rm m hc => ⟨fun hr => ?movapsLoad, fun hr => ?movupsLoad, fun hr => ⟨?movhpsLoad, ?movlpsLoad⟩, ?movhlps, ?movlhps⟩,
    fun s r q m hc => ⟨?movssReg, fun hr => ?movssMem, ?movssStore⟩, fun s r q hc => ⟨?movapsStore, ?movupsStore, ?movmskps⟩⟩
  case movapsLoad => exact xmmCompletes_binary rfl hc (xmm128_ok hr) rfl
  case movupsLoad => exact xmmCompletes_binary rfl hc (xmm128u_ok hr) rfl
  case movhpsLoad => exact xmmCompletes_binary rfl hc (xmm64_ok hr) ⟨highHalf_high _ _, highHalf_low _ _⟩
  case movlpsLoad => exact xmmCompletes_binary rfl hc (xmm64_ok hr) ⟨lowHalf_low _ _, lowHalf_high _ _⟩
  case movhlps => exact xmmCompletes_binary rfl hc (xmm128_ok (rm := .reg q) rfl) ⟨lowHalf_low _ _, lowHalf_high _ _⟩
  case movlhps => exact xmmCompletes_binary rfl hc (xmm128_ok (rm := .reg q) rfl) ⟨highHalf_high _ _, highHalf_low _ _⟩
  case movssReg => exact xmmCompletes_binary rfl hc (xmm32_ok (rm := .reg q) rfl) (lowElem_parts _ _)
  case movssMem => exact xmmCompletes_binary rfl hc (xmm32_ok hr) (movssResult_mem_parts m _ _)
  case movssStore => exact xmmCompletes_store rfl hc rfl (lowElem_parts _ _)
  case movapsStore => exact xmmCompletes_store rfl hc rfl rfl
  case movupsStore => exact xmmCompletes_store rfl hc rfl rfl
  case movmskps =>
    refine ⟨_, exec_movmskps r q hc, fun k hk => ?_, fun k hk => ?_, writesGprOnly_setX s r _, SameDraws.refl s⟩
    · rw [State.setX_x_self, getLsbD_signMask_low _ hk]
    · rw [State.setX_x_self, getLsbD_signMask_high _ hk]

/-- Settles O37: each of the seven is the storing frame with a memory destination. -/
theorem xmmStoreToMemory : Obligations.XmmStoreToMemory := by
  refine fun s r m hc hm => ⟨fun hr => ⟨?movaps, ?movntps⟩, fun hr => ?movups, fun hr => ⟨?movhps, ?movlps⟩,
    fun hr => ⟨?movss, ?stmxcsr⟩⟩
  case movaps => exact xmmStore_completes_mem rfl hm (by decide) hc hr
  case movntps => exact xmmStore_completes_mem rfl hm (by decide) hc hr
  case movups => exact xmmStore_completes_mem rfl hm (by decide) hc hr
  case movhps => exact xmmStore_completes_mem rfl hm (by decide) hc hr
  case movlps => exact xmmStore_completes_mem rfl hm (by decide) hc hr
  case movss => exact xmmStore_completes_mem rfl hm (by decide) hc hr
  case stmxcsr => exact xmmStore_completes_mem rfl hm (by decide) hc hr

end Sys2Proof.Machine
end

section
/-! PROOFS. Single-precision numbers: their fields and classes by the bits of the pattern (10_state R44; 47 R282), what the element
functions do in each case of 47 R283 and R286 that rounds nothing, and the relation of R289. -/

namespace Sys2Proof.Machine

/-! ### The fields of a pattern -/

theorem fpExp_lt (v : Dword) : fpExp v < 256 := (v.extractLsb' 23 8).isLt

theorem fpFrac_lt (v : Dword) : fpFrac v < 2 ^ 23 := (v.extractLsb' 0 23).isLt

/-- A pattern without its sign bit is the exponent field above the fraction field (10_state R44). -/
theorem magnitude_eq_fields (v : Dword) : (v &&& 0x7FFFFFFF#32).toNat = fpExp v * 2 ^ 23 + fpFrac v := by
  have hmod : (v &&& 0x7FFFFFFF#32).toNat = v.toNat % 2 ^ 31 := by
    rw [BitVec.toNat_and]
    exact Nat.and_two_pow_sub_one_eq_mod _ 31
  rw [hmod, fpExp, fpFrac, BitVec.extractLsb'_toNat, BitVec.extractLsb'_toNat, Nat.shiftRight_eq_div_pow, Nat.shiftRight_zero]
  omega

/-- Bit 31 set is the upper half of the patterns. -/
theorem fpSign_eq (v : Dword) : fpSign v = decide (2 ^ 31 ≤ v.toNat) := by
  rw [fpSign, show v.getLsbD 31 = v.msb from (BitVec.msb_eq_getLsbD_last v).symm, BitVec.msb_eq_decide]

/-- Two patterns with the same three fields are equal. -/
theorem fp_ext {v w : Dword} (hs : fpSign v = fpSign w) (he : fpExp v = fpExp w) (hf : fpFrac v = fpFrac w) : v = w := by
  rw [fpSign_eq, fpSign_eq, decide_eq_decide] at hs
  rw [fpExp, fpExp, BitVec.extractLsb'_toNat, BitVec.extractLsb'_toNat, Nat.shiftRight_eq_div_pow, Nat.shiftRight_eq_div_pow] at he
  rw [fpFrac, fpFrac, BitVec.extractLsb'_toNat, BitVec.extractLsb'_toNat, Nat.shiftRight_zero, Nat.shiftRight_zero] at hf
  exact BitVec.eq_of_toNat_eq (by have := v.isLt; have := w.isLt; omega)

section
variable (neg : Bool) (m : BitVec 31)

@[simp] theorem fpSign_withSign : fpSign (withSign neg m) = neg := by
  rw [fpSign, withSign, BitVec.getLsbD_append]
  simp

@[simp] theorem fpExp_withSign : fpExp (withSign neg m) = m.toNat / 2 ^ 23 := by
  rw [fpExp, withSign, extract_low _ _ _ _ (by decide), BitVec.extractLsb'_toNat, Nat.shiftRight_eq_div_pow]
  exact Nat.mod_eq_of_lt (by have := m.isLt; omega)

@[simp] theorem fpFrac_withSign : fpFrac (withSign neg m) = m.toNat % 2 ^ 23 := by
  rw [fpFrac, withSign, extract_low _ _ _ _ (by decide), BitVec.extractLsb'_toNat, Nat.shiftRight_zero]

end

/-- The sign bit kept, the fields cleared. -/
theorem and_signBit (v : Dword) : v &&& 0x80000000#32 = zeroOf (fpSign v) := by
  have h : (v &&& 0x80000000#32).toNat = (fpSign v).toNat * 2 ^ 31 := by
    rw [BitVec.toNat_and]
    exact Nat.and_two_pow _ 31
  apply BitVec.eq_of_toNat_eq
  rw [h]
  cases fpSign v <;> rfl

theorem zeroOf_or_inf (neg : Bool) : zeroOf neg ||| 0x7F800000#32 = infOf neg := by cases neg <;> rfl

/-- The flipped sign bit. -/
theorem negate_fields (b : Dword) :
    fpSign (negate b) = !fpSign b ∧ fpExp (negate b) = fpExp b ∧ fpFrac (negate b) = fpFrac b := by
  refine ⟨?_, ?_, ?_⟩
  · rw [fpSign, negate, BitVec.getLsbD_xor]
    simp [fpSign]
  · rw [fpExp, negate, BitVec.extractLsb'_xor]
    simp [fpExp]
  · rw [fpFrac, negate, BitVec.extractLsb'_xor]
    simp [fpFrac]

/-! ### The classes, by the fields (10_state R44; 47 R282) -/

section
variable (v : Dword)

theorem zeroBits_iff : ZeroBits v ↔ fpExp v = 0 ∧ fpFrac v = 0 := by
  rw [ZeroBits, magnitude_eq_fields]
  omega

theorem denormalBits_iff : DenormalBits v ↔ fpExp v = 0 ∧ fpFrac v ≠ 0 := by
  have := fpFrac_lt v
  rw [DenormalBits, magnitude_eq_fields]
  omega

theorem normalBits_iff : NormalBits v ↔ fpExp v ≠ 0 ∧ fpExp v ≠ 255 := by
  have := fpExp_lt v
  have := fpFrac_lt v
  rw [NormalBits, magnitude_eq_fields]
  omega

theorem infBits_iff : InfBits v ↔ fpExp v = 255 ∧ fpFrac v = 0 := by
  have := fpExp_lt v
  have := fpFrac_lt v
  rw [InfBits, magnitude_eq_fields]
  omega

theorem nanBits_iff : NaNBits v ↔ fpExp v = 255 ∧ fpFrac v ≠ 0 := by
  have := fpExp_lt v
  have := fpFrac_lt v
  rw [NaNBits, magnitude_eq_fields]
  omega

/-- The tests of `fpClass`, one after the other, are the classes of 10_state R44. -/
theorem fpClass_iff :
    (fpClass v = .zero ↔ ZeroBits v) ∧ (fpClass v = .denormal ↔ DenormalBits v) ∧ (fpClass v = .normal ↔ NormalBits v) ∧
      (fpClass v = .inf ↔ InfBits v) ∧ (fpClass v = .snan ↔ SNaNBits v) ∧
      (fpClass v = .snan ∨ fpClass v = .qnan ↔ NaNBits v) := by
  have := fpExp_lt v
  rw [zeroBits_iff, denormalBits_iff, normalBits_iff, infBits_iff, SNaNBits, nanBits_iff, fpClass]
  split_ifs <;> simp_all <;> omega

@[simp] theorem isZero_iff : isZero v = true ↔ ZeroBits v := by
  obtain ⟨h, -⟩ := fpClass_iff v
  rw [isZero, beq_iff_eq, h]

@[simp] theorem isDenormal_iff : isDenormal v = true ↔ DenormalBits v := by
  obtain ⟨-, h, -⟩ := fpClass_iff v
  rw [isDenormal, beq_iff_eq, h]

theorem fpClass_normal_iff : fpClass v = .normal ↔ NormalBits v := by
  obtain ⟨-, -, h, -⟩ := fpClass_iff v
  exact h

@[simp] theorem isInf_iff : isInf v = true ↔ InfBits v := by
  obtain ⟨-, -, -, h, -⟩ := fpClass_iff v
  rw [isInf, beq_iff_eq, h]

@[simp] theorem isSNaN_iff : isSNaN v = true ↔ SNaNBits v := by
  obtain ⟨-, -, -, -, h, -⟩ := fpClass_iff v
  rw [isSNaN, beq_iff_eq, h]

@[simp] theorem isNaN_iff : isNaN v = true ↔ NaNBits v := by
  obtain ⟨-, -, -, -, -, h⟩ := fpClass_iff v
  rw [isNaN, Bool.or_eq_true, beq_iff_eq, beq_iff_eq, h]

end

/-! ### The element functions of 47 R283 and R286, their cases by the bits of the operands -/

section
variable (mx a b : Dword) (de : Bool)

theorem denormalFlag_eq : denormalFlag a b = if DenormalBits a ∨ DenormalBits b then flagDE else noFlags := by
  simp only [denormalFlag, flagsIf, Bool.or_eq_true, isDenormal_iff]

theorem fpAdd_eq :
    fpAdd mx a b =
      if NaNBits a ∨ NaNBits b then nan2 a b
      else if InfBits a ∧ InfBits b ∧ fpSign a ≠ fpSign b then .early qnanIndef flagIE
      else if InfBits a then .early a (denormalFlag a b)
      else if InfBits b then .early b (denormalFlag a b)
      else if fpUnits a + fpUnits b = 0 then .early (exactZero mx a b) (denormalFlag a b)
      else rounded mx (denormalFlag a b) (.ofInt (fpUnits a + fpUnits b) (-149)) := by
  simp only [fpAdd, Bool.or_eq_true, Bool.and_eq_true, isNaN_iff, isInf_iff, bne_iff_ne, and_assoc]

theorem fpSub_eq : fpSub mx a b = if NaNBits a ∨ NaNBits b then nan2 a b else fpAdd mx a (negate b) := by
  simp only [fpSub, Bool.or_eq_true, isNaN_iff]

theorem fpMul_eq :
    fpMul mx a b =
      if NaNBits a ∨ NaNBits b then nan2 a b
      else if (ZeroBits a ∧ InfBits b) ∨ (InfBits a ∧ ZeroBits b) then .early qnanIndef flagIE
      else if InfBits a ∨ InfBits b then .early (infOf (fpSign a ^^ fpSign b)) (denormalFlag a b)
      else if ZeroBits a ∨ ZeroBits b then .early (zeroOf (fpSign a ^^ fpSign b)) (denormalFlag a b)
      else rounded mx (denormalFlag a b) ⟨fpSign a ^^ fpSign b, fpMan a * fpMan b, 1, fpScale a + fpScale b, false⟩ := by
  simp only [fpMul, Bool.or_eq_true, Bool.and_eq_true, isNaN_iff, isInf_iff, isZero_iff]

theorem fpDiv_eq :
    fpDiv de mx a b =
      if NaNBits a ∨ NaNBits b then nan2 a b
      else if (ZeroBits a ∧ ZeroBits b) ∨ (InfBits a ∧ InfBits b) then .early qnanIndef flagIE
      else if ZeroBits b ∧ ¬InfBits a then
        .early (infOf (fpSign a ^^ fpSign b)) (flagZE ||| flagsIf (isDenormal a && de) flagDE)
      else if InfBits a then .early (infOf (fpSign a ^^ fpSign b)) (denormalFlag a b)
      else if InfBits b ∨ ZeroBits a then .early (zeroOf (fpSign a ^^ fpSign b)) (denormalFlag a b)
      else rounded mx (denormalFlag a b) ⟨fpSign a ^^ fpSign b, fpMan a, fpMan b, fpScale a - fpScale b, false⟩ := by
  simp only [fpDiv, Bool.or_eq_true, Bool.and_eq_true, Bool.not_eq_true', Bool.eq_false_iff, ne_eq, isNaN_iff, isInf_iff,
    isZero_iff]

theorem fpSqrt_eq :
    fpSqrt mx b =
      if NaNBits b then .early (quiet b) (flagsIf (isSNaN b) flagIE)
      else if ZeroBits b then .early b noFlags
      else if fpSign b then .early qnanIndef flagIE
      else if InfBits b then .early b noFlags
      else rounded mx (flagsIf (isDenormal b) flagDE) (sqrtExact (fpMag b)) := by
  simp only [fpSqrt, isNaN_iff, isInf_iff, isZero_iff]

theorem exactZero_eq :
    exactZero mx a b =
      if ZeroBits a ∧ ZeroBits b ∧ fpSign a = fpSign b then zeroOf (fpSign a) else zeroOf (mx.extractLsb' 13 2 = 1#2) := by
  have hrc : (mxRC mx == .down) = decide (mx.extractLsb' 13 2 = 1#2) := by
    unfold mxRC
    split_ifs <;> simp_all
  simp only [exactZero, hrc, Bool.and_eq_true, isZero_iff, beq_iff_eq, and_assoc]

end

/-! ### NaN operands -/

/-- What NaN2 delivers (47 R283). -/
theorem nan2_quiets (a b : Dword) :
    (NaNBits a → (nan2 a b).res = a ||| 0x00400000#32) ∧ (¬NaNBits a → (nan2 a b).res = b ||| 0x00400000#32) ∧
      (SNaNBits a ∨ SNaNBits b → (nan2 a b).pre = flagIE) ∧ (¬SNaNBits a → ¬SNaNBits b → (nan2 a b).pre = noFlags) ∧
      (nan2 a b).post = noFlags := by
  simp only [nan2, Signalled.early, quiet, flagsIf, Bool.or_eq_true, isNaN_iff, isSNaN_iff]
  refine ⟨fun ha => if_pos ha, fun ha => if_neg ha, fun hs => if_pos hs, fun ha hb => if_neg (not_or.mpr ⟨ha, hb⟩), trivial⟩

/-- Settles O44: with a NaN operand each of the four is NaN2, and the root quiets its operand. -/
theorem nanOperandsComeOutQuiet : Obligations.NanOperandsComeOutQuiet := by
  intro mx a b de
  constructor
  · intro h f hf
    have hnan : f a b = nan2 a b := by
      simp only [List.mem_cons, List.not_mem_nil, or_false] at hf
      obtain rfl | rfl | rfl | rfl := hf
      · rw [fpAdd_eq, if_pos h]
      · rw [fpSub_eq, if_pos h]
      · rw [fpMul_eq, if_pos h]
      · rw [fpDiv_eq, if_pos h]
    rw [hnan]
    exact nan2_quiets a b
  · intro hb
    rw [fpSqrt_eq, if_pos hb]
    simp only [Signalled.early, quiet, flagsIf, isSNaN_iff]
    exact ⟨trivial, trivial, fun hs => if_pos hs, fun hs => if_neg hs⟩

/-! ### A number with its sign flipped -/

section
variable (b : Dword)

@[simp] theorem fpSign_negate : fpSign (negate b) = !fpSign b := (negate_fields b).1

@[simp] theorem fpExp_negate : fpExp (negate b) = fpExp b := (negate_fields b).2.1

@[simp] theorem fpFrac_negate : fpFrac (negate b) = fpFrac b := (negate_fields b).2.2

theorem zeroBits_negate : ZeroBits (negate b) ↔ ZeroBits b := by
  rw [zeroBits_iff, zeroBits_iff, fpExp_negate, fpFrac_negate]

theorem denormalBits_negate : DenormalBits (negate b) ↔ DenormalBits b := by
  rw [denormalBits_iff, denormalBits_iff, fpExp_negate, fpFrac_negate]

theorem infBits_negate : InfBits (negate b) ↔ InfBits b := by
  rw [infBits_iff, infBits_iff, fpExp_negate, fpFrac_negate]

theorem nanBits_negate : NaNBits (negate b) ↔ NaNBits b := by
  rw [nanBits_iff, nanBits_iff, fpExp_negate, fpFrac_negate]

theorem denormalFlag_negate (a : Dword) : denormalFlag a (negate b) = denormalFlag a b := by
  simp only [denormalFlag_eq, denormalBits_negate]

@[simp] theorem fpMag_negate : fpMag (negate b) = fpMag b := by
  rw [fpMag, fpMag, fpMan, fpMan, fpExp_negate, fpFrac_negate]

@[simp] theorem fpUnits_negate : fpUnits (negate b) = -fpUnits b := by
  rw [fpUnits, fpUnits, fpSign_negate, fpMag_negate]
  cases fpSign b <;> simp

@[simp] theorem fpVal_negate : fpVal (negate b) = -fpVal b := by
  rw [fpVal_eq, fpVal_eq, fpUnits_negate, Int.cast_neg, neg_mul]

end

/-! ### Exact values (47 R282) -/

/-- A finite number lies below 2^128, which is 2^277 units. -/
theorem fpMag_lt {v : Dword} (h : fpExp v ≠ 255) : fpMag v < 2 ^ 277 := by
  have he := fpExp_lt v
  have hf := fpFrac_lt v
  have hman : fpMan v < 2 ^ 24 := by
    rw [fpMan]
    split <;> omega
  calc fpMan v * 2 ^ (fpExp v - 1) < 2 ^ 24 * 2 ^ 253 :=
        Nat.mul_lt_mul_of_lt_of_le hman (Nat.pow_le_pow_right two_pos (by omega)) (by positivity)
    _ = 2 ^ 277 := by rw [← pow_add]

theorem fpMag_eq_zero_iff (v : Dword) : fpMag v = 0 ↔ ZeroBits v := by
  rw [zeroBits_iff, fpMag, Nat.mul_eq_zero, fpMan]
  simp only [Nat.pow_eq_zero]
  split <;> omega

theorem natAbs_fpUnits (v : Dword) : (fpUnits v).natAbs = fpMag v := by
  rw [fpUnits]
  split <;> simp

theorem fpUnits_eq_zero_iff (v : Dword) : fpUnits v = 0 ↔ ZeroBits v := by
  rw [← Int.natAbs_eq_zero, natAbs_fpUnits, fpMag_eq_zero_iff]

theorem fpVal_add_eq_zero_iff (a b : Dword) : fpVal a + fpVal b = 0 ↔ fpUnits a + fpUnits b = 0 := by
  rw [fpVal_eq, fpVal_eq, ← add_mul, mul_eq_zero, or_iff_left (by positivity)]
  exact_mod_cast Iff.rfl

/-! ### Zeros and infinities -/

theorem eq_zeroOf {v : Dword} (h : ZeroBits v) : v = zeroOf (fpSign v) := by
  obtain ⟨he, hf⟩ := (zeroBits_iff v).mp h
  exact fp_ext (by simp [zeroOf]) (by simp [zeroOf, he]) (by simp [zeroOf, hf])

theorem eq_infOf {v : Dword} (h : InfBits v) : v = infOf (fpSign v) := by
  obtain ⟨he, hf⟩ := (infBits_iff v).mp h
  exact fp_ext (by simp [infOf]) (by simp [infOf, he]) (by simp [infOf, hf])

/-- The sign of a product or quotient, as a zero of it. -/
theorem xor_and_signBit (a b : Dword) : (a ^^^ b) &&& 0x80000000#32 = zeroOf (fpSign a ^^ fpSign b) := by
  rw [and_signBit, fpSign, BitVec.getLsbD_xor]
  rfl

theorem zeroOf_decide (p : Prop) [Decidable p] : zeroOf (decide p) = if p then 0x80000000#32 else 0#32 := by
  by_cases h : p <;> simp [h] <;> rfl

/-! ### Results that are not rounded (47 R286) -/

section
variable {mx a b : Dword}

/-- R286 steps 2 to 6 of the addition of two numbers that are no NaN. -/
theorem fpAdd_special (ha : ¬NaNBits a) (hb : ¬NaNBits b) :
    (InfBits a → InfBits b → fpSign a ≠ fpSign b → fpAdd mx a b = ⟨qnanIndef, flagIE, noFlags⟩) ∧
    (InfBits a → (InfBits b → fpSign a = fpSign b) → fpAdd mx a b = ⟨a, denormalFlag a b, noFlags⟩) ∧
    (InfBits b → ¬InfBits a → fpAdd mx a b = ⟨b, denormalFlag a b, noFlags⟩) ∧
    (¬InfBits a → ¬InfBits b → fpUnits a + fpUnits b = 0 → fpAdd mx a b = ⟨exactZero mx a b, denormalFlag a b, noFlags⟩) := by
  rw [fpAdd_eq, if_neg (not_or.mpr ⟨ha, hb⟩)]
  refine ⟨fun hia hib hs => ?_, fun hia hs => ?_, fun hib hia => ?_, fun hia hib hz => ?_⟩
  · rw [if_pos ⟨hia, hib, hs⟩, Signalled.early]
  · rw [if_neg fun ⟨_, hib, h⟩ => h (hs hib), if_pos hia, Signalled.early]
  · rw [if_neg fun ⟨h, _⟩ => hia h, if_neg hia, if_pos hib, Signalled.early]
  · rw [if_neg fun ⟨h, _⟩ => hia h, if_neg hia, if_neg hib, if_pos hz, Signalled.early]

/-- The zero an exact sum of zero is, by the bits of its terms. -/
theorem exactZero_bits :
    exactZero mx a b = if ZeroBits a ∧ a = b then a else if mx.extractLsb' 13 2 = 1#2 then 0x80000000#32 else 0#32 := by
  have hiff : ZeroBits a ∧ ZeroBits b ∧ fpSign a = fpSign b ↔ ZeroBits a ∧ a = b := by
    constructor
    · rintro ⟨ha, hb, hs⟩
      exact ⟨ha, by rw [eq_zeroOf ha, eq_zeroOf hb, hs]⟩
    · rintro ⟨ha, rfl⟩
      exact ⟨ha, ha, rfl⟩
  rw [exactZero_eq, zeroOf_decide]
  simp only [hiff]
  split_ifs with h
  · exact (eq_zeroOf h.1).symm
  all_goals rfl

theorem fpSub_eq_fpAdd (ha : ¬NaNBits a) (hb : ¬NaNBits b) : fpSub mx a b = fpAdd mx a (negate b) := by
  rw [fpSub_eq, if_neg (not_or.mpr ⟨ha, hb⟩)]

end

/-- Whatever the draw is, ZE is the flag beside DE (47 R286 step 3). -/
theorem flagZE_without_DE (c : Bool) : (flagZE ||| flagsIf c flagDE) &&& ~~~flagDE = flagZE := by cases c <;> decide

/-- Settles O45: each clause is one case of its element function, the classes being exclusive; a difference is the sum with the second
operand's sign flipped. -/
theorem specialArithmeticResults : Obligations.SpecialArithmeticResults := by
  intro mx a b de ha hb
  have hnan : ¬(NaNBits a ∨ NaNBits b) := not_or.mpr ⟨ha, hb⟩
  obtain ⟨addInvalid, addInfLeft, addInfRight, addZero⟩ := fpAdd_special (mx := mx) ha hb
  obtain ⟨subInvalid, subInfLeft, subInfRight, subZero⟩ := fpAdd_special (mx := mx) ha ((nanBits_negate b).not.mpr hb)
  simp only [infBits_negate, fpSign_negate, denormalFlag_negate, ← fpSub_eq_fpAdd ha hb, ne_eq, Bool.eq_not, not_not]
    at subInvalid subInfLeft subInfRight subZero
  simp only [← denormalFlag_eq, xor_and_signBit, zeroOf_or_inf]
  refine ⟨addInvalid, subInvalid, fun h => ?mulInvalid, fun h => ?divInvalid, fun hzb hna => ?divByZero,
    fun hzb hda => ?divDenormalByZero, addInfLeft, addInfRight, subInfLeft, subInfRight, fun h => ?mulInf, fun h => ?mulZero,
    fun hia hib => ?divInf, fun h => ?divToZero, fun hia hib h => ?addZero, fun hia hib h => ?subZero⟩
  case mulInvalid => rw [fpMul_eq, if_neg hnan, if_pos h, Signalled.early, qnanIndef]
  case divInvalid => rw [fpDiv_eq, if_neg hnan, if_pos h, Signalled.early, qnanIndef]
  case divByZero =>
    have hd : isDenormal a = false := by rw [Bool.eq_false_iff, ne_eq, isDenormal_iff]; omega
    rw [fpDiv_eq, if_neg hnan, if_neg (by omega), if_pos (by omega), hd, Bool.false_and]
    rfl
  case divDenormalByZero =>
    rw [fpDiv_eq, if_neg hnan, if_neg (by omega), if_pos (by omega)]
    exact ⟨rfl, flagZE_without_DE _, rfl⟩
  case mulInf => rw [fpMul_eq, if_neg hnan, if_neg (by omega), if_pos (by omega), Signalled.early]
  case mulZero => rw [fpMul_eq, if_neg hnan, if_neg (by omega), if_neg (by omega), if_pos (by omega), Signalled.early]
  case divInf => rw [fpDiv_eq, if_neg hnan, if_neg (by omega), if_neg (by omega), if_pos hia, Signalled.early]
  case divToZero =>
    rw [fpDiv_eq, if_neg hnan, if_neg (by omega), if_neg (by omega), if_neg (by omega), if_pos (by omega), Signalled.early]
  case addZero => rw [addZero hia hib ((fpVal_add_eq_zero_iff a b).mp h), exactZero_bits]
  case subZero =>
    rw [subZero hia hib ((fpVal_add_eq_zero_iff a (negate b)).mp (by rw [fpVal_negate, ← sub_eq_add_neg, h])), exactZero_bits, negate]

/-! ### The relation (47 R289) -/

section
variable {a b : Dword}

theorem not_nan_not_inf_iff (v : Dword) : ¬NaNBits v ∧ ¬InfBits v ↔ fpExp v ≠ 255 := by
  rw [nanBits_iff, infBits_iff]
  tauto

theorem orderKey_finite (h : ¬InfBits a) : orderKey a = fpUnits a := by
  rw [orderKey, if_neg (by rwa [isInf_iff])]

theorem orderKey_inf (h : InfBits a) : orderKey a = if a.getLsbD 31 then -(2 ^ 278) else 2 ^ 278 := by
  rw [orderKey, if_pos (by rwa [isInf_iff])]
  rfl

/-- Finite keys lie between those of the infinities. -/
theorem abs_fpUnits_lt (hn : ¬NaNBits a) (hi : ¬InfBits a) : |fpUnits a| < 2 ^ 278 := by
  rw [Int.abs_eq_natAbs, natAbs_fpUnits]
  exact_mod_cast (fpMag_lt ((not_nan_not_inf_iff a).mp ⟨hn, hi⟩)).trans (Nat.pow_lt_pow_right one_lt_two (by decide))

theorem relation_nan (h : NaNBits a ∨ NaNBits b) : relation a b = .un := by
  rw [relation, if_pos (by simpa only [Bool.or_eq_true, isNaN_iff])]

/-- Of numbers the relation is the order of their keys. -/
theorem relation_numbers (ha : ¬NaNBits a) (hb : ¬NaNBits b) :
    (orderKey a < orderKey b → relation a b = .lt) ∧ (orderKey a = orderKey b → relation a b = .eq) ∧
      (orderKey b < orderKey a → relation a b = .gt) := by
  rw [relation, if_neg (by simpa only [Bool.or_eq_true, isNaN_iff, not_or] using ⟨ha, hb⟩)]
  refine ⟨fun h => ?_, fun h => ?_, fun h => ?_⟩
  · rw [if_neg h.ne, if_pos h]
  · rw [if_pos h]
  · rw [if_neg h.ne', if_neg h.le.not_gt]

end

/-- Settles O50: the relation is the order of the keys, the exact value of a finite number and one beyond all of them of an infinity. -/
theorem relationOrdersValues : Obligations.RelationOrdersValues := by
  refine fun a b => ⟨relation_nan, fun ha hb hia hib => ?finite, fun hia hb hib => ?inf, fun hia hib => ?infs, fun ha hb => ?converse⟩
  case finite =>
    have h := relation_numbers ha hb
    rwa [orderKey_finite hia, orderKey_finite hib, ← fpVal_lt_iff, ← fpVal_eq_iff, ← fpVal_lt_iff] at h
  case inf =>
    obtain ⟨hlt, -, hgt⟩ := relation_numbers (a := a) (by omega) hb
    rw [orderKey_inf hia, orderKey_finite hib] at hlt hgt
    obtain ⟨hlo, hhi⟩ := abs_lt.mp (abs_fpUnits_lt hb hib)
    split_ifs at hlt hgt ⊢ with hs
    · exact hlt hlo
    · exact hgt hhi
  case infs =>
    obtain ⟨hlt, heq, hgt⟩ := relation_numbers (a := a) (b := b) (by omega) (by omega)
    refine ⟨fun h => heq (by rw [h]), fun h => ?_⟩
    have hs : a.getLsbD 31 ≠ b.getLsbD 31 := fun hs => h (by rw [eq_infOf hia, eq_infOf hib, fpSign, fpSign, hs])
    rw [orderKey_inf hia, orderKey_inf hib] at hlt hgt
    have hpow : (-(2 ^ 278) : ℤ) < 2 ^ 278 := neg_lt_self (by positivity)
    rw [Bool.eq_not.mpr hs.symm] at hlt hgt
    generalize a.getLsbD 31 = neg at hlt hgt ⊢
    cases neg
    · exact hgt hpow
    · exact hlt hpow
  case converse =>
    obtain ⟨hlt, heq, hgt⟩ := relation_numbers ha hb
    obtain ⟨hlt', heq', hgt'⟩ := relation_numbers hb ha
    rcases lt_trichotomy (orderKey a) (orderKey b) with h | h | h
    · simp [hlt h, hgt' h]
    · simp [heq h, heq' h.symm]
    · simp [hgt h, hlt' h]

end Sys2Proof.Machine
end

section
/-! PROOFS. The numeric XMM instructions (47 R280, R288): that they decide their conditions and then write, said once for each shape, what
an unmasked condition does, and the instructions whose results the element functions give, with the comparisons (47 R287, R289, R305,
R306). -/

namespace Sys2Proof.Machine

/-! ### Each shape, once its checks and its operand have passed, is `finish` -/

section
variable {w : Nat} {s : State} {r : Reg} {rm : RM}

theorem xmmNumeric_run {read : State → RM → Except Stop (BitVec w)} {compute : Xword → BitVec w → Signalled Xword} {v : BitVec w}
    (hc : xmmReady s = true) (hr : read s rm = .ok v) :
    xmmNumeric read compute s r rm = finish s (compute (s.xm r) v) fun t x => t.setXm r x := by
  rw [xmmNumeric, (xmmCheck_ok (u := ())).mpr hc, ok_bind, hr, ok_bind]

/-- DIVPS and DIVSS, which use a draw. -/
theorem xmmNumericDrawn_run {read : State → RM → Except Stop (BitVec w)} {compute : Xword → BitVec w → Signalled Xword} {v : BitVec w}
    (hc : xmmReady s = true) (hr : read s rm = .ok v) :
    (do let t ← xmmNumeric read compute s r rm; pure t.drawn) =
      finish s (compute (s.xm r) v) fun t x => (t.setXm r x).drawn := by
  rw [xmmNumeric_run hc hr, finish, finish, bind_assoc]
  rfl

theorem xmmCompare_run {signals : Dword → Dword → FpFlags} (hc : xmmReady s = true) (hr : reachable .read 4 false s rm = true) :
    xmmCompare signals s r rm =
      finish s (.early (relation (elem 32 (s.xm r) 0) (srcXm32 s rm)) (signals (elem 32 (s.xm r) 0) (srcXm32 s rm)))
        fun t c => { t with eflags := compareFlags t.eflags c } := by
  rw [xmmCompare, (xmmCheck_ok (u := ())).mpr hc, ok_bind, xmm32_ok hr, ok_bind]

theorem xmmToGpr_run {f : Dword → Signalled Dword} (hc : xmmReady s = true) (hr : reachable .read 4 false s rm = true) :
    xmmToGpr f s r rm = finish s (f (srcXm32 s rm)) fun t i => t.setX r i := by
  rw [xmmToGpr, (xmmCheck_ok (u := ())).mpr hc, ok_bind, xmm32_ok hr, ok_bind]

theorem xmmToMmx_run {f : Dword → Signalled Dword} (hc : xmmReady s = true) (hp : s.x87Pending = false)
    (hr : reachable .read 8 false s rm = true) :
    xmmToMmx f s r rm = finish s (pair fun k => f (elem 32 (srcXm64 s rm) k)) fun t i => (t.setMm r i).mmxEnter := by
  rw [xmmToMmx, (xmmMmxCheck_ok (u := ())).mpr ⟨hc, hp⟩, ok_bind, xmm64_ok hr, ok_bind]

theorem execCvtpi2ps_run (hc : xmmReady s = true) (hp : s.x87Pending = false) (hr : reachable .read 8 false s rm = true) :
    execCvtpi2ps r rm s =
      (finish s (pair fun k => intToFp s.mxcsr (elem 32 (srcMm s rm) k)) fun t i =>
        (t.setXm r (lowHalf (t.xm r) i)).mmxEnter).outcome := by
  rw [execCvtpi2ps, (xmmMmxCheck_ok (u := ())).mpr ⟨hc, hp⟩, ok_bind, mm64_ok hr, ok_bind]

theorem withPredicate_run {imm : Byte} {read : State → RM → Except Stop (BitVec w)} {v : BitVec w} (hr : read s rm = .ok v)
    (hi : imm.toNat ≤ 7) : withPredicate imm read s rm = .ok v := withPredicate_ok.mpr ⟨hr, hi⟩

end

/-! ### Unmasked conditions (47 R288; 60_exceptions R390) -/

/-- The exception of an unmasked condition that leaves the state `u`: #XM, or #UD where CR4.OSXMMEXCPT = 0 (60_exceptions R390). -/
def unmaskedFault (s u : State) : Host.Outcome State Fault Refusal := if s.osxmmexcpt then .fault (.xm u) else .fault (.ud u)

/-- The instruction stops at an unmasked one of the flags: at `pre`, recording them alone; else at `post`, recording both. -/
def StopsUnmasked (i : Instr) (s : State) (pre post : FpFlags) : Prop :=
  (pre &&& ~~~(mxMasks s.mxcsr) ≠ 0#6 → exec i s = unmaskedFault s (s.orMxcsr pre)) ∧
  (pre &&& ~~~(mxMasks s.mxcsr) = 0#6 → post &&& ~~~(mxMasks s.mxcsr) ≠ 0#6 →
    exec i s = unmaskedFault s ((s.orMxcsr pre).orMxcsr post))

theorem simdFault_bind_outcome {α : Type} (u : State) (f : α → Effect) :
    Effect.outcome (simdFault u >>= f) = if u.osxmmexcpt then .fault (.xm u) else .fault (.ud u) := by
  rw [simdFault]
  split <;> rfl

theorem finish_stopsUnmasked {α : Type} {i : Instr} {s : State} {c : Signalled α} {write : State → α → State}
    (e : exec i s = (finish s c write).outcome) : StopsUnmasked i s c.pre c.post := by
  simp only [StopsUnmasked, e, finish, simdDecide, unmasked, bne_iff_ne]
  refine ⟨fun hpre => ?_, fun hpre hpost => ?_⟩
  · rw [if_pos hpre, simdFault_bind_outcome]
    rfl
  · rw [if_neg (not_not.mpr hpre), if_pos hpost, simdFault_bind_outcome]
    rfl

section
variable {i : Instr} {s : State} {r : Reg} {rm : RM}

theorem xmmNumeric_stopsUnmasked {w : Nat} {read : State → RM → Except Stop (BitVec w)} {compute : Xword → BitVec w → Signalled Xword}
    {v : BitVec w} (e : exec i s = (xmmNumeric read compute s r rm).outcome) (hc : xmmReady s = true) (hr : read s rm = .ok v) :
    StopsUnmasked i s (compute (s.xm r) v).pre (compute (s.xm r) v).post :=
  finish_stopsUnmasked (e.trans (congrArg Effect.outcome (xmmNumeric_run hc hr)))

theorem xmmNumericDrawn_stopsUnmasked {w : Nat} {read : State → RM → Except Stop (BitVec w)}
    {compute : Xword → BitVec w → Signalled Xword} {v : BitVec w}
    (e : exec i s = Effect.outcome (do let t ← xmmNumeric read compute s r rm; pure t.drawn)) (hc : xmmReady s = true)
    (hr : read s rm = .ok v) : StopsUnmasked i s (compute (s.xm r) v).pre (compute (s.xm r) v).post :=
  finish_stopsUnmasked (e.trans (congrArg Effect.outcome (xmmNumericDrawn_run hc hr)))

theorem xmmCompare_stopsUnmasked {signals : Dword → Dword → FpFlags} {f : FpFlags} (e : exec i s = (xmmCompare signals s r rm).outcome)
    (hc : xmmReady s = true) (hr : reachable .read 4 false s rm = true) (hf : signals (elem 32 (s.xm r) 0) (srcXm32 s rm) = f) :
    StopsUnmasked i s f noFlags := by
  subst hf
  exact finish_stopsUnmasked (e.trans (congrArg Effect.outcome (xmmCompare_run hc hr)))

theorem xmmToGpr_stopsUnmasked {f : Dword → Signalled Dword} (e : exec i s = (xmmToGpr f s r rm).outcome) (hc : xmmReady s = true)
    (hr : reachable .read 4 false s rm = true) : StopsUnmasked i s (f (srcXm32 s rm)).pre (f (srcXm32 s rm)).post :=
  finish_stopsUnmasked (e.trans (congrArg Effect.outcome (xmmToGpr_run hc hr)))

theorem xmmToMmx_stopsUnmasked {f : Dword → Signalled Dword} (e : exec i s = (xmmToMmx f s r rm).outcome) (hc : xmmReady s = true)
    (hp : s.x87Pending = false) (hr : reachable .read 8 false s rm = true) :
    StopsUnmasked i s (pair fun k => f (elem 32 (srcXm64 s rm) k)).pre (pair fun k => f (elem 32 (srcXm64 s rm) k)).post :=
  finish_stopsUnmasked (e.trans (congrArg Effect.outcome (xmmToMmx_run hc hp hr)))

end

/-! ### The flags of the comparisons and of the integer conversion -/

section
variable {a b : Dword}

theorem orderedSignals_eq (a b : Dword) : orderedSignals a b = if NaNBits a ∨ NaNBits b then flagIE else denormalFlag a b := by
  simp only [orderedSignals, Bool.or_eq_true, isNaN_iff]

theorem unorderedSignals_eq (a b : Dword) :
    unorderedSignals a b =
      if SNaNBits a ∨ SNaNBits b then flagIE else if NaNBits a ∨ NaNBits b then noFlags else denormalFlag a b := by
  simp only [unorderedSignals, Bool.or_eq_true, isNaN_iff, isSNaN_iff]

theorem denormalFlag_of_denormal (h : DenormalBits a ∨ DenormalBits b) : denormalFlag a b = flagDE := by
  rw [denormalFlag_eq, if_pos h]

theorem intToFp_pre (mx v : Dword) : (intToFp mx v).pre = noFlags := by
  rw [intToFp]
  split <;> rfl

end

/-- Settles O22: once its checks and its operand have passed, each of the 24 is `finish` of what it computed. -/
theorem unmaskedConditionRaises : Obligations.UnmaskedConditionRaises := by
  intro s r rm imm hc
  refine ⟨fun hr => ?packed, fun hr => ?scalar, fun hp hr => ?pair⟩
  case packed =>
    have hv := xmm128_ok hr
    refine ⟨?addps, ?subps, ?mulps, ?divps, ?sqrtps, ?maxps, ?minps, fun hi => ?cmpps⟩
    case divps => exact (xmmNumericDrawn_stopsUnmasked (i := .divps r rm) rfl hc hv :)
    case addps => exact (xmmNumeric_stopsUnmasked (i := .addps r rm) rfl hc hv :)
    case subps => exact (xmmNumeric_stopsUnmasked (i := .subps r rm) rfl hc hv :)
    case mulps => exact (xmmNumeric_stopsUnmasked (i := .mulps r rm) rfl hc hv :)
    case sqrtps => exact (xmmNumeric_stopsUnmasked (i := .sqrtps r rm) rfl hc hv :)
    case maxps => exact (xmmNumeric_stopsUnmasked (i := .maxps r rm) rfl hc hv :)
    case minps => exact (xmmNumeric_stopsUnmasked (i := .minps r rm) rfl hc hv :)
    case cmpps => exact (xmmNumeric_stopsUnmasked (i := .cmpps r rm imm) rfl hc (withPredicate_ok.mpr ⟨hv, hi⟩) :)
  case scalar =>
    have hv := xmm32_ok hr
    refine ⟨?addss, ?subss, ?mulss, ?divss, ?sqrtss, ?maxss, ?minss, fun hi => ?cmpss,
      ⟨fun h => ?comissInvalid, fun ha hb h => ?comissDenormal⟩,
      ⟨fun h => ?ucomissInvalid, fun ha hb h => ?ucomissDenormal⟩, ?cvtsi2ss, ?cvtss2si, ?cvttss2si⟩
    case divss => exact (xmmNumericDrawn_stopsUnmasked (i := .divss r rm) rfl hc hv :)
    case addss => exact (xmmNumeric_stopsUnmasked (i := .addss r rm) rfl hc hv :)
    case subss => exact (xmmNumeric_stopsUnmasked (i := .subss r rm) rfl hc hv :)
    case mulss => exact (xmmNumeric_stopsUnmasked (i := .mulss r rm) rfl hc hv :)
    case sqrtss => exact (xmmNumeric_stopsUnmasked (i := .sqrtss r rm) rfl hc hv :)
    case maxss => exact (xmmNumeric_stopsUnmasked (i := .maxss r rm) rfl hc hv :)
    case minss => exact (xmmNumeric_stopsUnmasked (i := .minss r rm) rfl hc hv :)
    case cmpss => exact (xmmNumeric_stopsUnmasked (i := .cmpss r rm imm) rfl hc (withPredicate_ok.mpr ⟨hv, hi⟩) :)
    case comissInvalid =>
      exact xmmCompare_stopsUnmasked (i := .comiss r rm) rfl hc hr (by rw [orderedSignals_eq, if_pos h])
    case comissDenormal =>
      exact xmmCompare_stopsUnmasked (i := .comiss r rm) rfl hc hr
        (by rw [orderedSignals_eq, if_neg (not_or.mpr ⟨ha, hb⟩), denormalFlag_of_denormal h])
    case ucomissInvalid =>
      exact xmmCompare_stopsUnmasked (i := .ucomiss r rm) rfl hc hr (by rw [unorderedSignals_eq, if_pos h])
    case ucomissDenormal =>
      exact xmmCompare_stopsUnmasked (i := .ucomiss r rm) rfl hc hr
        (by rw [unorderedSignals_eq, if_neg (by tauto), if_neg (not_or.mpr ⟨ha, hb⟩), denormalFlag_of_denormal h])
    case cvtsi2ss =>
      rw [← intToFp_pre s.mxcsr (srcGp s rm)]
      exact (xmmNumeric_stopsUnmasked (i := .cvtsi2ss r rm) rfl hc (gp32_ok hr) :)
    case cvtss2si => exact (xmmToGpr_stopsUnmasked (i := .cvtss2si r rm) rfl hc hr :)
    case cvttss2si => exact (xmmToGpr_stopsUnmasked (i := .cvttss2si r rm) rfl hc hr :)
  case pair =>
    refine ⟨?cvtpi2ps, ?cvtps2pi, ?cvttps2pi⟩
    case cvtps2pi => exact (xmmToMmx_stopsUnmasked (i := .cvtps2pi r rm) rfl hc hp hr :)
    case cvttps2pi => exact (xmmToMmx_stopsUnmasked (i := .cvttps2pi r rm) rfl hc hp hr :)
    case cvtpi2ps => exact (finish_stopsUnmasked (i := .cvtpi2ps r rm) (execCvtpi2ps_run hc hp hr) :)

/-- The flags of four elements, in the order of the elements and then before and after the computation. -/
theorem packedWith_flags (f : Nat → Dword → Dword → Signalled Dword) (d v : Xword) :
    let e (k : Nat) := f k (elem 32 d k) (elem 32 v k)
    (packedWith f d v).pre ||| (packedWith f d v).post =
      (e 0).pre ||| (e 1).pre ||| (e 2).pre ||| (e 3).pre ||| (e 0).post ||| (e 1).post ||| (e 2).post ||| (e 3).post := by
  simp only [packedWith, packed, BitVec.or_assoc]

/-! ### Completion -/

/-- Where nothing signalled is unmasked the result is written, all flags recorded (47 R288). -/
theorem finish_completes {α : Type} {s : State} {c : Signalled α} {write : State → α → State} (hu : noneUnmasked s (c.pre ||| c.post)) :
    finish s c write = .ok (write (s.orMxcsr (c.pre ||| c.post)) c.res) := by
  obtain ⟨hpre, hpost⟩ := unmasked_of_none hu
  exact finish_ok.mpr ⟨hpre, hpost, rfl⟩

section
variable {i : Instr} {s : State} {r : Reg} {rm : RM}

/-- The packed scheme, element by element (47 R280). -/
theorem numericCompletes_packed {read : State → RM → Except Stop Xword} {f : Nat → Dword → Dword → Signalled Dword} {v : Xword}
    {flags : FpFlags} {P : Nat → Dword → Prop} (e : exec i s = (xmmNumeric read (packedWith f) s r rm).outcome)
    (hc : xmmReady s = true) (hr : read s rm = .ok v)
    (hf : (packedWith f (s.xm r) v).pre ||| (packedWith f (s.xm r) v).post = flags) (hu : noneUnmasked s flags)
    (hP : ∀ k < 4, P k (f k (elem 32 (s.xm r) k) (elem 32 v k)).res) :
    NumericCompletes i s r flags fun x => ∀ k < 4, P k (elem 32 x k) :=
  numericCompletes_frame e hc hr hf hu fun k hk => by
    rw [packedWith, elem_packed _ hk]
    exact hP k hk

theorem numericCompletes_packed_res {read : State → RM → Except Stop Xword} {f : Nat → Dword → Dword → Signalled Dword} {v : Xword}
    (e : exec i s = (xmmNumeric read (packedWith f) s r rm).outcome) (hc : xmmReady s = true) (hr : read s rm = .ok v) :
    let e (k : Nat) := f k (elem 32 (s.xm r) k) (elem 32 v k)
    let flags := (e 0).pre ||| (e 1).pre ||| (e 2).pre ||| (e 3).pre ||| (e 0).post ||| (e 1).post ||| (e 2).post ||| (e 3).post
    noneUnmasked s flags → NumericCompletes i s r flags fun x => ∀ k < 4, elem 32 x k = (e k).res :=
  fun hu => numericCompletes_packed (P := fun k x => x = (f k (elem 32 (s.xm r) k) (elem 32 v k)).res) e hc hr (packedWith_flags _ _ _) hu
    fun _ _ => rfl

/-- The scalar scheme: element 0 by the operation, the others kept (47 R280). -/
theorem numericCompletes_scalar {w : Nat} {read : State → RM → Except Stop (BitVec w)} {f : Xword → BitVec w → Signalled Dword}
    {v : BitVec w} {flags : FpFlags} {P : Dword → Prop}
    (e : exec i s = (xmmNumeric read (fun d v => scalar d (f d v)) s r rm).outcome) (hc : xmmReady s = true) (hr : read s rm = .ok v)
    (hf : (f (s.xm r) v).pre ||| (f (s.xm r) v).post = flags) (hu : noneUnmasked s flags) (hP : P (f (s.xm r) v).res) :
    NumericCompletes i s r flags fun x => P (elem 32 x 0) ∧ x.extractLsb' 32 96 = (s.xm r).extractLsb' 32 96 :=
  numericCompletes_frame e hc hr hf hu ⟨by rw [scalar, elem_lowElem_zero]; exact hP, lowElem_high _ _⟩

theorem numericCompletes_scalar_res {w : Nat} {read : State → RM → Except Stop (BitVec w)} {f : Xword → BitVec w → Signalled Dword}
    {v : BitVec w} (e : exec i s = (xmmNumeric read (fun d v => scalar d (f d v)) s r rm).outcome) (hc : xmmReady s = true)
    (hr : read s rm = .ok v) :
    let e := f (s.xm r) v
    noneUnmasked s (e.pre ||| e.post) → NumericCompletes i s r (e.pre ||| e.post) fun x =>
      x.extractLsb' 0 32 = e.res ∧ x.extractLsb' 32 96 = (s.xm r).extractLsb' 32 96 :=
  fun hu => numericCompletes_scalar (P := (· = (f (s.xm r) v).res)) e hc hr rfl hu rfl

/-- A numeric instruction that uses a draw: DIVPS and DIVSS. -/
theorem numericDrawn_completes {w : Nat} {read : State → RM → Except Stop (BitVec w)} {compute : Xword → BitVec w → Signalled Xword}
    {v : BitVec w} {flags : FpFlags} (e : exec i s = Effect.outcome (do let t ← xmmNumeric read compute s r rm; pure t.drawn))
    (hc : xmmReady s = true) (hr : read s rm = .ok v) (hf : (compute (s.xm r) v).pre ||| (compute (s.xm r) v).post = flags)
    (hu : noneUnmasked s flags) :
    ∃ t, exec i s = .next t ∧ t.xm r = (compute (s.xm r) v).res ∧ t.mxcsr = s.mxcsr ||| flags.setWidth 32 ∧ WritesXmFlags s t r ∧
      t.draws = s.draws + 1 := by
  subst hf
  have hnext := e.trans (congrArg Effect.outcome ((xmmNumericDrawn_run hc hr).trans (finish_completes hu)))
  exact ⟨_, hnext, State.setXm_xm_self _ _ _, rfl, ⟨fun _ hq => State.setXm_xm_ne _ _ hq, SameGpr.refl s, SameFpr.refl s,
    SameX87.refl s, rfl, SameMem.refl s, SameSystem.refl s, rfl⟩, rfl⟩

end

/-- Settles O39: three packed and three scalar operations in the numeric frame. -/
theorem addSubMulResults : Obligations.AddSubMulResults := by
  intro s r rm hc
  refine ⟨fun hr => ⟨?addps, ?subps, ?mulps⟩, fun hr => ⟨?addss, ?subss, ?mulss⟩⟩
  case addps => exact (numericCompletes_packed_res (i := .addps r rm) rfl hc (xmm128_ok hr) :)
  case subps => exact (numericCompletes_packed_res (i := .subps r rm) rfl hc (xmm128_ok hr) :)
  case mulps => exact (numericCompletes_packed_res (i := .mulps r rm) rfl hc (xmm128_ok hr) :)
  case addss => exact (numericCompletes_scalar_res (i := .addss r rm) rfl hc (xmm32_ok hr) :)
  case subss => exact (numericCompletes_scalar_res (i := .subss r rm) rfl hc (xmm32_ok hr) :)
  case mulss => exact (numericCompletes_scalar_res (i := .mulss r rm) rfl hc (xmm32_ok hr) :)

/-- Settles O40: the divisions in the frame that uses a draw, the roots as operations that ignore the destination. -/
theorem divideAndSqrtResults : Obligations.DivideAndSqrtResults := by
  refine ⟨fun s r rm hc => ⟨fun hr hu => ?divps, fun hr hu => ?divss⟩, fun s r rm hc => ⟨fun hr => ?sqrtps, fun hr => ?sqrtss⟩⟩
  case divps =>
    obtain ⟨t, hnext, hval, hrest⟩ := numericDrawn_completes (i := .divps r rm) rfl hc (xmm128_ok hr) (packedWith_flags _ _ _) hu
    exact ⟨t, hnext, fun k hk => by rw [hval, packedWith, elem_packed _ hk], hrest⟩
  case divss =>
    obtain ⟨t, hnext, hval, hrest⟩ := numericDrawn_completes (i := .divss r rm) rfl hc (xmm32_ok hr) rfl hu
    obtain ⟨hlow, hhigh⟩ := lowElem_parts (s.xm r)
      (fpDiv (Config.divideDenormalDE s.draws 0) s.mxcsr (elem 32 (s.xm r) 0) (srcXm32 s rm)).res
    exact ⟨t, hnext, (congrArg (BitVec.extractLsb' 0 32) hval).trans hlow, (congrArg (BitVec.extractLsb' 32 96) hval).trans hhigh, hrest⟩
  case sqrtps => exact (numericCompletes_packed_res (i := .sqrtps r rm) rfl hc (xmm128_ok hr) :)
  case sqrtss => exact (numericCompletes_scalar_res (i := .sqrtss r rm) rfl hc (xmm32_ok hr) :)

/-! ### Maxima, minima and comparison masks (47 R287, R289) -/

/-- FpMax and FpMin by the bits of the operands: they differ in the relation that picks the destination's element. -/
def fpExtreme (which : Relation) (a b : Dword) : Signalled Dword :=
  if NaNBits a ∨ NaNBits b then .early b flagIE
  else if ZeroBits a ∧ ZeroBits b then .early b noFlags
  else .early (if relation a b = which then a else b) (if DenormalBits a ∨ DenormalBits b then flagDE else noFlags)

theorem fpMax_eq (a b : Dword) : fpMax a b = fpExtreme .gt a b := by
  simp only [fpMax, fpExtreme, denormalFlag_eq, Bool.or_eq_true, Bool.and_eq_true, isNaN_iff, isZero_iff]

theorem fpMin_eq (a b : Dword) : fpMin a b = fpExtreme .lt a b := by
  simp only [fpMin, fpExtreme, denormalFlag_eq, Bool.or_eq_true, Bool.and_eq_true, isNaN_iff, isZero_iff]

theorem fpExtreme_pre (which : Relation) (a b : Dword) :
    (fpExtreme which a b).pre =
      if NaNBits a ∨ NaNBits b then flagIE else if ZeroBits a ∧ ZeroBits b then noFlags
      else if DenormalBits a ∨ DenormalBits b then flagDE else noFlags := by
  rw [fpExtreme]
  split_ifs <;> rfl

theorem fpExtreme_post (which : Relation) (a b : Dword) : (fpExtreme which a b).post = noFlags := by
  rw [fpExtreme]
  split_ifs <;> rfl

/-- The element picked: the source's for a NaN and for two zeros, else the one the relation says. -/
def ExtremeIs (which : Relation) (a b x : Dword) : Prop :=
  (NaNBits a ∨ NaNBits b → x = b) ∧ (ZeroBits a → ZeroBits b → x = b) ∧
    (¬NaNBits a → ¬NaNBits b → ¬(ZeroBits a ∧ ZeroBits b) → x = if relation a b = which then a else b)

theorem fpExtreme_res (which : Relation) (a b : Dword) : ExtremeIs which a b (fpExtreme which a b).res := by
  rw [ExtremeIs, fpExtreme]
  refine ⟨fun h => ?_, fun ha hb => ?_, fun ha hb h => ?_⟩
  · rw [if_pos h, Signalled.early]
  · rw [if_neg (by omega), if_pos ⟨ha, hb⟩, Signalled.early]
  · rw [if_neg (not_or.mpr ⟨ha, hb⟩), if_neg h, Signalled.early]

/-- Predicates 0 to 3: EQ, LT, LE, UNORD; 4 to 7 are the same ones, to be negated (47 R289). -/
def predicateBase (n : Nat) (x : Relation) : Prop :=
  (n % 4 = 0 ∧ x = .eq) ∨ (n % 4 = 1 ∧ x = .lt) ∨ (n % 4 = 2 ∧ (x = .lt ∨ x = .eq)) ∨ (n % 4 = 3 ∧ x = .un)

/-- The mask of predicate `n` (47 R289). -/
def MaskIs (n : Nat) (a b x : Dword) : Prop :=
  (n < 4 → (predicateBase n (relation a b) → x = 0xFFFFFFFF#32) ∧ (¬predicateBase n (relation a b) → x = 0#32)) ∧
    (4 ≤ n → (predicateBase n (relation a b) → x = 0#32) ∧ (¬predicateBase n (relation a b) → x = 0xFFFFFFFF#32))

section
variable {imm : Byte} (hi : imm.toNat ≤ 7)
include hi

theorem predicateHolds_iff (x : Relation) :
    predicateHolds (imm.setWidth 3) x = true ↔ (predicateBase imm.toNat x ↔ imm.toNat < 4) := by
  have hn : (imm.setWidth 3).toNat = imm.toNat := by
    rw [BitVec.toNat_setWidth]
    omega
  rw [← hn]
  generalize imm.setWidth 3 = p
  unfold predicateBase
  revert p
  cases x <;> decide

theorem fpCmp_res (a b : Dword) : MaskIs imm.toNat a b (fpCmp (imm.setWidth 3) a b).res := by
  have holds (h : predicateBase imm.toNat (relation a b) ↔ imm.toNat < 4) : (fpCmp (imm.setWidth 3) a b).res = 0xFFFFFFFF#32 := by
    rw [fpCmp, (predicateHolds_iff hi _).mpr h]
    rfl
  have fails (h : ¬(predicateBase imm.toNat (relation a b) ↔ imm.toNat < 4)) : (fpCmp (imm.setWidth 3) a b).res = 0#32 := by
    rw [fpCmp, Bool.eq_false_iff.mpr ((predicateHolds_iff hi _).not.mpr h)]
    rfl
  exact ⟨fun hlt => ⟨fun hb => holds (iff_of_true hb hlt), fun hb => fails fun h => hb (h.mpr hlt)⟩,
    fun hge => ⟨fun hb => fails fun h => hge.not_gt (h.mp hb), fun hb => holds (iff_of_false hb hge.not_gt)⟩⟩

theorem predicateSignals_iff : predicateSignals (imm.setWidth 3) = true ↔ imm = 1#8 ∨ imm = 2#8 ∨ imm = 5#8 ∨ imm = 6#8 := by
  revert imm
  decide

theorem fpCmp_pre (a b : Dword) :
    (fpCmp (imm.setWidth 3) a b).pre =
      if SNaNBits a ∨ SNaNBits b ∨ ((NaNBits a ∨ NaNBits b) ∧ (imm = 1#8 ∨ imm = 2#8 ∨ imm = 5#8 ∨ imm = 6#8)) then flagIE
      else if DenormalBits a ∨ DenormalBits b then flagDE else noFlags := by
  simp only [fpCmp, Signalled.early, compareSignals, denormalFlag_eq, Bool.or_eq_true, Bool.and_eq_true, isSNaN_iff, isNaN_iff,
    predicateSignals_iff hi, or_assoc, and_comm (a := NaNBits a ∨ _)]

end

/-- A predicate above 7 is refused once the checks and the operand have passed (47 R289; log 26). -/
theorem reservedPredicate_refused {w : Nat} {i : Instr} {s : State} {r : Reg} {rm : RM} {imm : Byte}
    {read : State → RM → Except Stop (BitVec w)} {compute : Xword → BitVec w → Signalled Xword} {v : BitVec w}
    (e : exec i s = (xmmNumeric (withPredicate imm read) compute s r rm).outcome) (hc : xmmReady s = true) (hr : read s rm = .ok v)
    (hi : 7 < imm.toNat) : exec i s = .refused (.reservedPredicate imm) := by
  have hstop : withPredicate imm read s rm = .error (.refused (.reservedPredicate imm)) := by
    rw [withPredicate, hr, ok_bind, if_pos hi, refuse]
  rw [e, xmmNumeric_stops hc hstop, outcome_refused]

section
variable {i : Instr} {s : State} {r : Reg} {rm : RM} {f : Dword → Dword → Signalled Dword} {flags : Dword → Dword → FpFlags}
  {is : Dword → Dword → Dword → Prop}

/-- A packed operation without post-computation flags. -/
theorem numericCompletes_packed_early {read : State → RM → Except Stop Xword} {v : Xword}
    (e : exec i s = (xmmNumeric read (packedWith fun _ => f) s r rm).outcome) (hc : xmmReady s = true) (hr : read s rm = .ok v)
    (hpost : ∀ a b, (f a b).post = noFlags) (hpre : ∀ a b, (f a b).pre = flags a b) (hres : ∀ a b, is a b (f a b).res) :
    let a (k : Nat) := elem 32 (s.xm r) k
    let b (k : Nat) := elem 32 v k
    let g := flags (a 0) (b 0) ||| flags (a 1) (b 1) ||| flags (a 2) (b 2) ||| flags (a 3) (b 3)
    noneUnmasked s g → NumericCompletes i s r g fun x => ∀ k < 4, is (a k) (b k) (elem 32 x k) :=
  fun hu => numericCompletes_packed (P := fun k x => is (elem 32 (s.xm r) k) (elem 32 v k) x) e hc hr
    (by simp only [packedWith, packed, hpre, hpost, noFlags, BitVec.or_zero]) hu fun _ _ => hres _ _

/-- A scalar operation without post-computation flags. -/
theorem numericCompletes_scalar_early {read : State → RM → Except Stop Dword} {v : Dword}
    (e : exec i s = (xmmNumeric read (fun d v => scalar d (f (elem 32 d 0) v)) s r rm).outcome) (hc : xmmReady s = true)
    (hr : read s rm = .ok v) (hpost : ∀ a b, (f a b).post = noFlags) (hpre : ∀ a b, (f a b).pre = flags a b)
    (hres : ∀ a b, is a b (f a b).res) :
    let a := elem 32 (s.xm r) 0
    noneUnmasked s (flags a v) → NumericCompletes i s r (flags a v) fun x =>
      is a v (elem 32 x 0) ∧ x.extractLsb' 32 96 = (s.xm r).extractLsb' 32 96 :=
  fun hu => numericCompletes_scalar (P := fun x => is (elem 32 (s.xm r) 0) v x) e hc hr
    (by simp only [hpre, hpost, noFlags, BitVec.or_zero]) hu (hres _ _)

end

/-- Settles O41: operations without post-computation flags, whose results are `fpExtreme_res` and `fpCmp_res`. -/
theorem maxMinAndCompareResults : Obligations.MaxMinAndCompareResults := by
  intro s r rm imm hc
  have hmax : fpMax = fpExtreme .gt := funext₂ fpMax_eq
  have hmin : fpMin = fpExtreme .lt := funext₂ fpMin_eq
  refine ⟨fun hr => ⟨?maxps, ?minps, fun hi => ?cmpps, fun hi => ?cmppsReserved⟩,
    fun hr => ⟨?maxss, ?minss, fun hi => ?cmpss, fun hi => ?cmpssReserved⟩⟩
  case maxps =>
    exact (numericCompletes_packed_early (i := .maxps r rm) (f := fpExtreme .gt) (is := ExtremeIs .gt) (by rw [← hmax]; rfl)
      hc (xmm128_ok hr) (fpExtreme_post _) (fpExtreme_pre _) (fpExtreme_res _) :)
  case minps =>
    exact (numericCompletes_packed_early (i := .minps r rm) (f := fpExtreme .lt) (is := ExtremeIs .lt) (by rw [← hmin]; rfl)
      hc (xmm128_ok hr) (fpExtreme_post _) (fpExtreme_pre _) (fpExtreme_res _) :)
  case maxss =>
    exact (numericCompletes_scalar_early (i := .maxss r rm) (f := fpExtreme .gt) (is := ExtremeIs .gt) (by rw [← hmax]; rfl)
      hc (xmm32_ok hr) (fpExtreme_post _) (fpExtreme_pre _) (fpExtreme_res _) :)
  case minss =>
    exact (numericCompletes_scalar_early (i := .minss r rm) (f := fpExtreme .lt) (is := ExtremeIs .lt) (by rw [← hmin]; rfl)
      hc (xmm32_ok hr) (fpExtreme_post _) (fpExtreme_pre _) (fpExtreme_res _) :)
  case cmpps =>
    exact (numericCompletes_packed_early (i := .cmpps r rm imm) (is := MaskIs imm.toNat) rfl
      hc (withPredicate_ok.mpr ⟨xmm128_ok hr, hi⟩) (fun _ _ => rfl) (fpCmp_pre hi) (fpCmp_res hi) :)
  case cmpss =>
    exact (numericCompletes_scalar_early (i := .cmpss r rm imm) (is := MaskIs imm.toNat) rfl
      hc (withPredicate_ok.mpr ⟨xmm32_ok hr, hi⟩) (fun _ _ => rfl) (fpCmp_pre hi) (fpCmp_res hi) :)
  case cmppsReserved => exact reservedPredicate_refused rfl hc (xmm128_ok hr) hi
  case cmpssReserved => exact reservedPredicate_refused rfl hc (xmm32_ok hr) hi

/-! ### COMISS and UCOMISS (47 R305, R306) -/

theorem statusFlags_getLsbD (k : Nat) : statusFlags.getLsbD k = decide (k ∈ [0, 2, 4, 6, 7, 11]) := by
  by_cases h : k < 32
  · revert k
    decide
  · rw [BitVec.getLsbD_of_ge _ _ (not_lt.mp h), eq_comm, decide_eq_false_iff_not]
    simp
    omega

/-- A status flag comes from the relation. -/
theorem compareFlags_getLsbD_status (e : Dword) (x : Relation) {k : Nat} (h : k ∈ [0, 2, 4, 6, 7, 11]) :
    (compareFlags e x).getLsbD k = (relationFlags x).getLsbD k := by
  rw [compareFlags, BitVec.getLsbD_or, BitVec.getLsbD_and, BitVec.getLsbD_not, statusFlags_getLsbD, decide_eq_true h]
  simp

/-- Every other bit is kept. -/
theorem compareFlags_getLsbD_other (e : Dword) (x : Relation) {k : Nat} (h : k ∉ [0, 2, 4, 6, 7, 11]) :
    (compareFlags e x).getLsbD k = e.getLsbD k := by
  have hx : (relationFlags x).getLsbD k = false := by
    have hsub : relationFlags x = relationFlags x &&& statusFlags := by cases x <;> rfl
    rw [hsub, BitVec.getLsbD_and, statusFlags_getLsbD, decide_eq_false h, Bool.and_false]
  rw [compareFlags, BitVec.getLsbD_or, BitVec.getLsbD_and, BitVec.getLsbD_not, statusFlags_getLsbD, decide_eq_false h, hx]
  by_cases hk : k < 32
  · simp [hk]
  · simp [hk, BitVec.getLsbD_of_ge e k (by omega)]

/-- A scalar comparison completes with EFLAGS by the relation, and writes nothing else but MXCSR. -/
theorem xmmCompare_completes {i : Instr} {s : State} {r : Reg} {rm : RM} {signals : Dword → Dword → FpFlags} {f : FpFlags}
    (e : exec i s = (xmmCompare signals s r rm).outcome) (hc : xmmReady s = true) (hr : reachable .read 4 false s rm = true)
    (hf : signals (elem 32 (s.xm r) 0) (srcXm32 s rm) = f) (hu : noneUnmasked s f) :
    ∃ t, exec i s = .next t ∧ t.eflags = compareFlags s.eflags (relation (elem 32 (s.xm r) 0) (srcXm32 s rm)) ∧
      t.mxcsr = s.mxcsr ||| f.setWidth 32 ∧ WritesEflags s t := by
  have hu' : noneUnmasked s (signals (elem 32 (s.xm r) 0) (srcXm32 s rm) ||| noFlags) := by rwa [hf, noFlags, BitVec.or_zero]
  have hnext := e.trans (congrArg Effect.outcome ((xmmCompare_run hc hr).trans (finish_completes hu')))
  refine ⟨_, hnext, rfl, ?_, SameGpr.refl s, SameFpr.refl s, SameX87.refl s, SameXmm.refl s, SameMem.refl s, SameSystem.refl s,
    SameDraws.refl s⟩
  show s.mxcsr ||| (signals (elem 32 (s.xm r) 0) (srcXm32 s rm) ||| noFlags).setWidth 32 = _
  rw [hf, noFlags, BitVec.or_zero]

/-- Settles O42: EFLAGS bit by bit, the six status flags from the relation, every other bit kept. -/
theorem comissResults : Obligations.ComissResults := by
  intro s r rm hc hr a b flagsAre denormal completes
  have hflags : flagsAre (compareFlags s.eflags (relation a b)) := by
    refine ⟨?_, ?_, ?_, ?_, fun k h0 h2 h4 h6 h7 h11 => compareFlags_getLsbD_other _ _ (by simp [*])⟩
    · rw [compareFlags_getLsbD_status _ _ (by decide), compareFlags_getLsbD_status _ _ (by decide),
        compareFlags_getLsbD_status _ _ (by decide)]
      cases relation a b <;> rfl
    all_goals
      rw [compareFlags_getLsbD_status _ _ (by decide)]
      cases relation a b <;> rfl
  refine ⟨fun hu => ?comiss, fun hu => ?ucomiss⟩
  case comiss =>
    obtain ⟨t, hnext, heflags, hrest⟩ := xmmCompare_completes (i := .comiss r rm) rfl hc hr
      (by rw [orderedSignals_eq, denormalFlag_eq]) hu
    exact ⟨t, hnext, heflags ▸ hflags, hrest⟩
  case ucomiss =>
    obtain ⟨t, hnext, heflags, hrest⟩ := xmmCompare_completes (i := .ucomiss r rm) rfl hc hr
      (by rw [unorderedSignals_eq, denormalFlag_eq]) hu
    exact ⟨t, hnext, heflags ▸ hflags, hrest⟩

end Sys2Proof.Machine
end

section
/-! PROOFS. Rounding (47 R284, R285): rounding to an integer by quotient and remainder, the real numbers an `Exact` describes, their binary
exponent, the encoding, and `roundSingle` as the correct rounding of every number its argument describes. -/

namespace Sys2Proof.Machine

/-! ### Rounding a real number to an integer (47 R284) -/

section
variable {rc : Rounding} {y : ℝ} {n : ℤ}

theorem RoundsToInt.floor_le_and_le_ceil (h : RoundsToInt rc y n) : ⌊y⌋ ≤ n ∧ n ≤ ⌈y⌉ := by
  have hfc : ⌊y⌋ ≤ ⌈y⌉ := Int.floor_le_ceil y
  cases rc with
  | nearest =>
    obtain ⟨hnear, -⟩ := h
    have hlo := Int.floor_le y
    have hhi := Int.le_ceil y
    have := abs_le.mp (by linarith : |y - n| ≤ 1 / 2)
    constructor
    · exact Int.le_of_lt_add_one (by exact_mod_cast (by linarith : (⌊y⌋ : ℝ) < n + 1))
    · exact Int.le_of_lt_add_one (by exact_mod_cast (by linarith : (n : ℝ) < ⌈y⌉ + 1))
  | down => exact ⟨h.ge, h.le.trans hfc⟩
  | up => exact ⟨hfc.trans h.ge, h.le⟩
  | zero =>
    have h : n = if 0 ≤ y then ⌊y⌋ else ⌈y⌉ := h
    split_ifs at h <;> omega

/-- Rounding crosses no integer. -/
theorem RoundsToInt.bounds (h : RoundsToInt rc y n) {a b : ℤ} (ha : (a : ℝ) ≤ y) (hb : y ≤ b) : a ≤ n ∧ n ≤ b := by
  obtain ⟨hlo, hhi⟩ := h.floor_le_and_le_ceil
  exact ⟨(Int.le_floor.mpr ha).trans hlo, hhi.trans (Int.ceil_le.mpr hb)⟩

/-- Rounding crosses no integer, by magnitudes. -/
theorem RoundsToInt.abs_bounds (h : RoundsToInt rc y n) {a b : ℤ} (ha : (a : ℝ) ≤ |y|) (hb : |y| ≤ b) : a ≤ |n| ∧ |n| ≤ b := by
  obtain ⟨hlo, hhi⟩ := h.floor_le_and_le_ceil
  have hbound := abs_le.mp hb
  refine ⟨?_, abs_le.mpr (h.bounds (by push_cast; exact hbound.1) hbound.2)⟩
  rcases le_abs.mp ha with ha | ha
  · exact le_abs.mpr (.inl ((Int.le_floor.mpr ha).trans hlo))
  · have : ⌈y⌉ ≤ -a := Int.ceil_le.mpr (by push_cast; linarith)
    exact le_abs.mpr (.inr (by omega))

/-- An integer rounds to itself. -/
theorem RoundsToInt.eq_of_int {k : ℤ} (h : RoundsToInt rc k n) : n = k := by
  obtain ⟨hlo, hhi⟩ := h.bounds le_rfl le_rfl
  omega

/-- A multiple of 2^q is the multiple it rounds to. -/
theorem RoundsToInt.multiple_iff {q : ℤ} (h : RoundsToInt rc (y * 2 ^ (-q)) n) :
    (∃ k : ℤ, y = k * 2 ^ q) ↔ y = n * 2 ^ q := by
  refine ⟨?_, fun h => ⟨n, h⟩⟩
  rintro ⟨k, rfl⟩
  rw [mul_assoc, ← zpow_add₀ two_ne_zero, add_neg_cancel, zpow_zero, mul_one] at h
  rw [h.eq_of_int]

end

/-! ### The quotient and the remainder that `roundsAway` decides by -/

/-- `z` is n + r / d, and where `sticky` a rest of less than 1 / d more; d is then even, so that the rest decides no tie. -/
structure QuotRem (z : ℝ) (n r d : ℕ) (sticky : Bool) : Prop where
  lt : r < d
  exact : sticky = false → (z - n) * d = r
  above : sticky = true → (r : ℝ) < (z - n) * d
  below : sticky = true → (z - n) * d < r + 1
  even : sticky = true → 2 ∣ d

section
variable {z : ℝ} {n r d : ℕ} {sticky : Bool} (h : QuotRem z n r d sticky)
include h

theorem QuotRem.pos : (0 : ℝ) < d := by exact_mod_cast Nat.zero_lt_of_lt h.lt

theorem QuotRem.le : (r : ℝ) ≤ (z - n) * d := by
  cases hs : sticky
  · exact (h.exact hs).ge
  · exact (h.above hs).le

theorem QuotRem.floor : ⌊z⌋ = n := by
  have hd := h.pos
  have hr : (0 : ℝ) ≤ r := r.cast_nonneg
  have hlt : (z - n) * d < 1 * d := by
    have : (r : ℝ) + 1 ≤ d := by exact_mod_cast h.lt
    cases hs : sticky
    · linarith [h.exact hs]
    · linarith [h.below hs]
  have hlo : 0 ≤ z - n := nonneg_of_mul_nonneg_left (hr.trans h.le) hd
  have hhi : z - n < 1 := lt_of_mul_lt_mul_right hlt hd.le
  rw [Int.floor_eq_iff]
  constructor <;> push_cast <;> linarith

/-- Nothing is left exactly where `z` is the quotient. -/
theorem QuotRem.eq_iff : z = n ↔ r = 0 ∧ sticky = false := by
  have hd := h.pos
  constructor
  · intro hz
    have hle := h.le
    rw [hz, sub_self, zero_mul] at hle
    have hr : r = 0 := by exact_mod_cast le_antisymm hle r.cast_nonneg
    refine ⟨hr, Bool.eq_false_iff.mpr fun hs => ?_⟩
    have := h.above hs
    rw [hz, sub_self, zero_mul, hr, Nat.cast_zero] at this
    exact lt_irrefl _ this
  · rintro ⟨rfl, hs⟩
    have := h.exact hs
    rw [Nat.cast_zero, mul_eq_zero, or_iff_left hd.ne'] at this
    linarith

theorem QuotRem.ceil : ⌈z⌉ = if r != 0 || sticky then (n : ℤ) + 1 else n := by
  by_cases hz : z = n
  · obtain ⟨rfl, rfl⟩ := h.eq_iff.mp hz
    rw [hz]
    simp
  · have hc : (r != 0 || sticky) = true := by
      by_contra hc
      simp only [Bool.not_eq_true, Bool.or_eq_false_iff, bne_eq_false_iff_eq] at hc
      exact hz (h.eq_iff.mpr hc)
    have hf := Int.floor_eq_iff.mp h.floor
    rw [if_pos hc, Int.ceil_eq_iff]
    have : (n : ℝ) < z := lt_of_le_of_ne (by exact_mod_cast hf.1) (Ne.symm hz)
    have := hf.2
    push_cast at *
    constructor <;> linarith

/-- Twice the remainder is to the divisor as the fraction is to one half. -/
theorem QuotRem.half :
    (2 * r < d → 2 * (z - n) < 1) ∧ (2 * r = d → sticky = false → 2 * (z - n) = 1) ∧
      (d < 2 * r ∨ (2 * r = d ∧ sticky = true) → 1 < 2 * (z - n)) := by
  have hd := h.pos
  refine ⟨fun hr => ?_, fun hr hs => ?_, fun hr => ?_⟩
  · refine lt_of_mul_lt_mul_right ?_ hd.le
    cases hs : sticky
    · have : (2 * r : ℝ) < d := by exact_mod_cast hr
      linarith [h.exact hs]
    · have : (2 * r + 2 : ℝ) ≤ d := by exact_mod_cast (by have := h.even hs; omega : 2 * r + 2 ≤ d)
      linarith [h.below hs]
  · have : (2 * r : ℝ) = d := by exact_mod_cast hr
    exact mul_right_cancel₀ hd.ne' (by linarith [h.exact hs])
  · refine lt_of_mul_lt_mul_right ?_ hd.le
    rcases hr with hr | ⟨hr, hs⟩
    · have : (d : ℝ) < 2 * r := by exact_mod_cast hr
      linarith [h.le]
    · have : (2 * r : ℝ) = d := by exact_mod_cast hr
      linarith [h.above hs]

end

theorem roundsToInt_nearest_of_lt_half {z : ℝ} {n : ℕ} (h0 : 0 ≤ z - n) (h : 2 * (z - n) < 1) : RoundsToInt .nearest z (n : ℕ) := by
  have habs : 2 * |z - n| < 1 := by rwa [abs_of_nonneg h0]
  exact ⟨habs.le, fun heq => absurd heq habs.ne⟩

theorem roundsToInt_nearest_of_half_lt {z : ℝ} {n : ℕ} (h1 : z - n < 1) (h : 1 < 2 * (z - n)) :
    RoundsToInt .nearest z (n + 1 : ℕ) := by
  have habs : 2 * |z - (n + 1 : ℕ)| < 1 := by
    push_cast
    rw [abs_of_neg (by linarith)]
    linarith
  exact ⟨habs.le, fun heq => absurd heq habs.ne⟩

theorem roundsToInt_nearest_of_half {z : ℝ} {n : ℕ} (h : 2 * (z - n) = 1) :
    RoundsToInt .nearest z (if n % 2 = 1 then n + 1 else n : ℕ) := by
  have hlo : 2 * |z - n| = 1 := by rw [abs_of_pos (by linarith), h]
  have hhi : 2 * |z - (n + 1 : ℕ)| = 1 := by
    push_cast
    rw [abs_of_neg (by linarith)]
    linarith
  split_ifs with hn
  · exact ⟨hhi.le, fun _ => by exact_mod_cast (Nat.odd_iff.mpr hn).add_one⟩
  · exact ⟨hlo.le, fun _ => by exact_mod_cast Nat.even_iff.mpr (by omega)⟩

/-- What a magnitude with its sign is. -/
def signed (neg : Bool) (n : ℕ) : ℤ := if neg then -(n : ℤ) else n

section
variable {z : ℝ} {n r d : ℕ} {sticky : Bool} (h : QuotRem z n r d sticky)
include h

/-- Nearest, ties to even: the remainder is compared with half the divisor. -/
theorem QuotRem.roundsToInt_nearest (neg : Bool) :
    RoundsToInt .nearest z (if roundsAway .nearest neg n r d sticky then n + 1 else n : ℕ) := by
  obtain ⟨hlt, heq, hgt⟩ := h.half
  obtain ⟨hlo, hhi⟩ := Int.floor_eq_iff.mp h.floor
  push_cast at hlo hhi
  rcases lt_trichotomy (2 * r) d with hr | hr | hr
  · have haway : roundsAway .nearest neg n r d sticky = false := by simp [roundsAway, hr.ne, hr.le]
    rw [haway]
    exact roundsToInt_nearest_of_lt_half (n := n) (by linarith) (hlt hr)
  · cases hs : sticky
    · have haway : roundsAway .nearest neg n r d false = decide (n % 2 = 1) := by
        simp only [roundsAway, hr, lt_irrefl, decide_false, decide_true, Bool.false_or, Bool.true_and, beq_eq_decide]
      rw [haway]
      simpa using roundsToInt_nearest_of_half (heq hr hs)
    · have haway : roundsAway .nearest neg n r d true = true := by simp [roundsAway, hr]
      rw [haway]
      exact roundsToInt_nearest_of_half_lt (by linarith) (hgt (.inr ⟨hr, hs⟩))
  · have haway : roundsAway .nearest neg n r d sticky = true := by simp [roundsAway, hr]
    rw [haway]
    exact roundsToInt_nearest_of_half_lt (by linarith) (hgt (.inl hr))

theorem QuotRem.floor_eq {away : Bool} (ha : away = false) : ((if away then n + 1 else n : ℕ) : ℤ) = ⌊z⌋ := by
  rw [h.floor, ha]
  rfl

theorem QuotRem.ceil_eq {away : Bool} (ha : away = (r != 0 || sticky)) : ((if away then n + 1 else n : ℕ) : ℤ) = ⌈z⌉ := by
  rw [h.ceil, ha]
  split <;> rfl

end

theorem RoundsToInt.nearest_neg {z : ℝ} {n : ℤ} (h : RoundsToInt .nearest z n) : RoundsToInt .nearest (-z) (-n) := by
  obtain ⟨hnear, heven⟩ := h
  have habs : |-z - ((-n : ℤ) : ℝ)| = |z - n| := by rw [Int.cast_neg, ← neg_sub', abs_neg]
  rw [← habs] at hnear heven
  exact ⟨hnear, fun heq => (heven heq).neg⟩

/-- `roundsAway` rounds a magnitude with its sign, in every mode (47 R284). -/
theorem QuotRem.roundsToInt {z : ℝ} {n r d : ℕ} {sticky : Bool} (h : QuotRem z n r d sticky) (rc : Rounding) (neg : Bool) :
    RoundsToInt rc (if neg then -z else z) (signed neg (if roundsAway rc neg n r d sticky then n + 1 else n)) := by
  cases rc with
  | nearest =>
    cases neg
    · exact h.roundsToInt_nearest false
    · exact (h.roundsToInt_nearest true).nearest_neg
  | down =>
    cases neg
    · exact h.floor_eq rfl
    · exact (congrArg Neg.neg (h.ceil_eq rfl)).trans Int.floor_neg.symm
  | up =>
    cases neg
    · exact h.ceil_eq rfl
    · exact (congrArg Neg.neg (h.floor_eq rfl)).trans Int.ceil_neg.symm
  | zero =>
    have hz : 0 ≤ z := n.cast_nonneg.trans (by exact_mod_cast h.floor ▸ Int.floor_le z)
    have hm := h.floor_eq (away := false) rfl
    cases neg
    · exact hm.trans (if_pos hz).symm
    · refine (congrArg Neg.neg hm).trans ?_
      rcases hz.eq_or_lt with rfl | hpos
      · simp
      · exact Int.ceil_neg.symm.trans (if_neg (by rw [if_pos rfl]; linarith)).symm

theorem cast_signed (neg : Bool) (n : ℕ) : ((signed neg n : ℤ) : ℝ) = if neg then -(n : ℝ) else n := by
  cases neg <;> simp [signed]

@[simp] theorem abs_signed (neg : Bool) (n : ℕ) : |signed neg n| = n := by
  cases neg <;> simp [signed]

/-! ### The real number an `Exact` stands for -/

/-- The real numbers that the fields of an `Exact` describe: one, or where `sticky` those strictly between two neighbouring
integers (times a power of two). -/
structure Exact.Describes (x : Exact) (y : ℝ) : Prop where
  den_pos : 0 < x.den
  sign : y = if x.neg then -|y| else |y|
  exact : x.sticky = false → |y| = x.num / x.den * 2 ^ x.exp
  den_one : x.sticky = true → x.den = 1
  above : x.sticky = true → (x.num : ℝ) * 2 ^ x.exp < |y|
  below : x.sticky = true → |y| < (x.num + 1) * 2 ^ x.exp

theorem Exact.scaledDen_pos {x : Exact} (hd : 0 < x.den) (q : ℤ) : 0 < x.scaledDen q := by
  rw [Exact.scaledDen]
  split_ifs
  · positivity
  · exact hd

/-- `scaledNum` and `scaledDen` are a ratio of num / den 2^(exp - q). -/
theorem Exact.scaledNum_eq {x : Exact} (hd : 0 < x.den) (q : ℤ) :
    (x.scaledNum q : ℝ) = x.num / x.den * 2 ^ x.exp * 2 ^ (-q) * x.scaledDen q := by
  have hd' : (x.den : ℝ) ≠ 0 := by exact_mod_cast hd.ne'
  rw [Exact.scaledNum, Exact.scaledDen, mul_assoc _ (2 ^ x.exp), ← zpow_add₀ two_ne_zero]
  split_ifs with h
  · have hpow : (2 : ℝ) ^ (x.exp + -q) * 2 ^ (q - x.exp).toNat = 1 := by
      rw [← zpow_natCast, ← zpow_add₀ two_ne_zero, Int.toNat_of_nonneg (by omega),
        show x.exp + -q + (q - x.exp) = 0 by ring, zpow_zero]
    push_cast
    field_simp
    rw [mul_assoc, hpow, mul_one]
  · have hpow : (2 : ℝ) ^ (x.exp + -q) = 2 ^ (x.exp - q).toNat := by
      rw [← zpow_natCast, Int.toNat_of_nonneg (by omega)]
      rfl
    rw [hpow]
    push_cast
    field_simp

section
variable {x : Exact} {y : ℝ} (h : x.Describes y) {q : ℤ} (hq : x.sticky = true → x.exp < q)
include h

theorem Exact.Describes.signed_abs : y * 2 ^ (-q) = if x.neg then -(|y| * 2 ^ (-q)) else |y| * 2 ^ (-q) := by
  have := h.sign
  split_ifs at this ⊢ <;> rw [this] <;> simp

include hq

/-- Quotient and remainder of the scaled ratio are those of |y| 2^-q. -/
theorem Exact.Describes.quotRem :
    QuotRem (|y| * 2 ^ (-q)) (x.scaledNum q / x.scaledDen q) (x.scaledNum q % x.scaledDen q) (x.scaledDen q) x.sticky := by
  have hsplit : (x.scaledNum q : ℝ) = (x.scaledNum q / x.scaledDen q : ℕ) * x.scaledDen q + (x.scaledNum q % x.scaledDen q : ℕ) := by
    exact_mod_cast (Nat.div_add_mod' (x.scaledNum q) (x.scaledDen q)).symm
  have hnum := Exact.scaledNum_eq h.den_pos q
  have hpos : (0 : ℝ) < x.scaledDen q := by exact_mod_cast Exact.scaledDen_pos h.den_pos q
  have hpow : (0 : ℝ) < 2 ^ (-q) := by positivity
  refine ⟨Nat.mod_lt _ (Exact.scaledDen_pos h.den_pos q), fun hs => ?exact, fun hs => ?above, fun hs => ?below, fun hs => ?even⟩
  case exact =>
    rw [← h.exact hs] at hnum
    linarith
  case above =>
    rw [h.den_one hs, Nat.cast_one, div_one] at hnum
    have := mul_lt_mul_of_pos_right (mul_lt_mul_of_pos_right (h.above hs) hpow) hpos
    linarith
  case below =>
    rw [h.den_one hs, Nat.cast_one, div_one] at hnum
    have hunit : (2 : ℝ) ^ x.exp * 2 ^ (-q) * x.scaledDen q = 1 := by
      rw [Exact.scaledDen, if_pos (hq hs).le, h.den_one hs, one_mul, Nat.cast_pow, ← zpow_natCast,
        Int.toNat_of_nonneg (by linarith [hq hs]), Nat.cast_ofNat, ← zpow_add₀ two_ne_zero, ← zpow_add₀ two_ne_zero,
        show x.exp + -q + (q - x.exp) = 0 by ring, zpow_zero]
    have := mul_lt_mul_of_pos_right (mul_lt_mul_of_pos_right (h.below hs) hpow) hpos
    linarith
  case even =>
    have hlt := hq hs
    rw [Exact.scaledDen, if_pos hlt.le]
    exact (dvd_pow_self 2 (by omega)).mul_left _

/-- `roundTo` rounds to a multiple of 2^q (47 R284). -/
theorem Exact.Describes.roundsToInt (rc : Rounding) : RoundsToInt rc (y * 2 ^ (-q)) (signed x.neg (x.roundTo rc q)) := by
  rw [h.signed_abs]
  exact (h.quotRem hq).roundsToInt rc x.neg

/-- `isMultiple` tells the multiples of 2^q. -/
theorem Exact.Describes.isMultiple_iff : x.isMultiple q = true ↔ ∃ k : ℤ, y = k * 2 ^ q := by
  have hqr := h.quotRem hq
  have hcancel : (2 : ℝ) ^ q * 2 ^ (-q) = 1 := by rw [← zpow_add₀ two_ne_zero, add_neg_cancel, zpow_zero]
  rw [Exact.isMultiple, Bool.and_eq_true, beq_iff_eq, Bool.not_eq_true', ← hqr.eq_iff]
  constructor
  · intro hz
    have habs : |y| = (x.scaledNum q / x.scaledDen q : ℕ) * 2 ^ q := by
      rw [← hz, mul_assoc, mul_comm (2 ^ (-q)), hcancel, mul_one]
    have hy := h.sign
    rw [habs] at hy
    refine ⟨signed x.neg (x.scaledNum q / x.scaledDen q), hy.trans ?_⟩
    rw [cast_signed, ite_mul, neg_mul]
  · rintro ⟨k, hk⟩
    have hz : |y| * 2 ^ (-q) = (|k| : ℤ) := by
      rw [hk, abs_mul, abs_of_pos (zpow_pos two_pos q : (0 : ℝ) < 2 ^ q), mul_assoc, hcancel, mul_one, Int.cast_abs]
    have hfloor := hqr.floor
    rw [hz, Int.floor_intCast] at hfloor
    rw [hz, hfloor, Int.cast_natCast]

end

/-! ### The binary exponent -/

theorem Exact.atLeast_iff {x : Exact} (hd : 0 < x.den) (l : ℤ) : x.atLeast l = true ↔ (2 : ℝ) ^ l ≤ x.num / x.den := by
  have hd' : (0 : ℝ) < x.den := by exact_mod_cast hd
  rw [Exact.atLeast, le_div_iff₀ hd']
  split_ifs with hl
  · obtain ⟨k, rfl⟩ := Int.eq_ofNat_of_zero_le hl
    rw [decide_eq_true_iff, mul_comm, Int.toNat_natCast, zpow_natCast]
    exact_mod_cast Iff.rfl
  · obtain ⟨k, hk⟩ := Int.eq_ofNat_of_zero_le (by omega : 0 ≤ -l)
    rw [decide_eq_true_iff, hk, Int.toNat_natCast, ← neg_neg l, hk, zpow_neg, zpow_natCast, inv_mul_le_iff₀ (by positivity), mul_comm]
    exact_mod_cast Iff.rfl

/-- A ratio lies within a factor of two of the power that the bit lengths of its parts give. -/
theorem log2_sub_bounds {n d : ℕ} (hn : 0 < n) (hd : 0 < d) :
    (2 : ℝ) ^ ((n.log2 : ℤ) - d.log2 - 1) ≤ n / d ∧ (n : ℝ) / d < 2 ^ ((n.log2 : ℤ) - d.log2 + 1) := by
  have hd' : (0 : ℝ) < d := by exact_mod_cast hd
  have hnlo : (2 : ℝ) ^ (n.log2 : ℤ) ≤ n := by exact_mod_cast Nat.log2_self_le hn.ne'
  have hnhi : (n : ℝ) < 2 ^ ((n.log2 : ℤ) + 1) := by exact_mod_cast Nat.lt_log2_self
  have hdlo : (2 : ℝ) ^ (d.log2 : ℤ) ≤ d := by exact_mod_cast Nat.log2_self_le hd.ne'
  have hdhi : (d : ℝ) ≤ 2 ^ ((d.log2 : ℤ) + 1) := by exact_mod_cast Nat.lt_log2_self.le
  constructor
  · rw [le_div_iff₀ hd']
    calc (2 : ℝ) ^ ((n.log2 : ℤ) - d.log2 - 1) * d ≤ 2 ^ ((n.log2 : ℤ) - d.log2 - 1) * 2 ^ ((d.log2 : ℤ) + 1) := by gcongr
      _ = 2 ^ (n.log2 : ℤ) := by rw [← zpow_add₀ two_ne_zero]; congr 1; ring
      _ ≤ n := hnlo
  · rw [div_lt_iff₀ hd']
    calc (n : ℝ) < 2 ^ ((n.log2 : ℤ) + 1) := hnhi
      _ = 2 ^ ((n.log2 : ℤ) - d.log2 + 1) * 2 ^ (d.log2 : ℤ) := by rw [← zpow_add₀ two_ne_zero]; congr 1; ring
      _ ≤ 2 ^ ((n.log2 : ℤ) - d.log2 + 1) * d := by gcongr

/-- `ilog` is the binary exponent of num / den 2^exp. -/
theorem Exact.ilog_bounds {x : Exact} (hn : 0 < x.num) (hd : 0 < x.den) :
    (2 : ℝ) ^ x.ilog ≤ x.num / x.den * 2 ^ x.exp ∧ (x.num : ℝ) / x.den * 2 ^ x.exp < 2 ^ (x.ilog + 1) := by
  obtain ⟨hlo, hhi⟩ := log2_sub_bounds hn hd
  have key (l : ℤ) (h1 : (2 : ℝ) ^ l ≤ x.num / x.den) (h2 : (x.num : ℝ) / x.den < 2 ^ (l + 1)) :
      (2 : ℝ) ^ (l + x.exp) ≤ x.num / x.den * 2 ^ x.exp ∧ (x.num : ℝ) / x.den * 2 ^ x.exp < 2 ^ (l + x.exp + 1) := by
    rw [add_right_comm, zpow_add₀ two_ne_zero, zpow_add₀ two_ne_zero]
    constructor <;> gcongr
  rw [Exact.ilog]
  split_ifs with hl
  · exact key _ ((Exact.atLeast_iff hd _).mp hl) hhi
  · exact key _ hlo (by rw [sub_add_cancel]; exact not_le.mp ((Exact.atLeast_iff hd _).not.mp hl))

/-- The binary exponent of every real number an `Exact` describes. -/
theorem Exact.Describes.abs_bounds {x : Exact} {y : ℝ} (h : x.Describes y) (hn : 0 < x.num) :
    2 ^ x.ilog ≤ |y| ∧ |y| < 2 ^ (x.ilog + 1) := by
  obtain ⟨hlo, hhi⟩ := Exact.ilog_bounds hn h.den_pos
  cases hs : x.sticky
  · rw [h.exact hs]
    exact ⟨hlo, hhi⟩
  · rw [h.den_one hs, Nat.cast_one, div_one] at hlo hhi
    refine ⟨hlo.trans (h.above hs).le, (h.below hs).trans_le ?_⟩
    have hone : (1 : ℝ) ≤ x.num := by exact_mod_cast hn
    have hexp : x.exp < x.ilog + 1 :=
      (zpow_lt_zpow_iff_right₀ one_lt_two).mp ((le_mul_of_one_le_left (by positivity) hone).trans_lt hhi)
    obtain ⟨k, hk⟩ := Int.eq_ofNat_of_zero_le (sub_nonneg.mpr hexp.le)
    have hsplit : (2 : ℝ) ^ (x.ilog + 1) = (2 ^ k : ℕ) * 2 ^ x.exp := by
      rw [Nat.cast_pow, Nat.cast_ofNat, ← zpow_natCast, ← zpow_add₀ two_ne_zero]
      congr 1
      omega
    rw [hsplit] at hhi ⊢
    have : x.num < 2 ^ k := by exact_mod_cast lt_of_mul_lt_mul_right hhi (by positivity)
    gcongr
    exact_mod_cast this

/-! ### Encoded results -/

theorem fpVal_eq_man (v : Dword) : fpVal v = (if fpSign v then -1 else 1) * fpMan v * 2 ^ fpScale v := by
  have h : fpVal v = if fpExp v = 0 then (if fpSign v then -1 else 1) * (fpFrac v : ℚ) * 2 ^ (-149 : ℤ)
      else (if fpSign v then -1 else 1) * (2 ^ 23 + (fpFrac v : ℚ)) * 2 ^ ((fpExp v : ℤ) - 150) := rfl
  rw [h, fpMan, fpScale]
  split_ifs <;> push_cast <;> rfl

/-- A normal number of a significand and an exponent (47 R282). -/
def encode (neg : Bool) (n : ℕ) (e : ℤ) : Dword :=
  withSign neg (BitVec.ofNat 8 (e + 127).toNat ++ BitVec.ofNat 23 (n % 2 ^ 23))

theorem encode_fields (neg : Bool) (n : ℕ) {e : ℤ} (he : e < 129) :
    fpSign (encode neg n e) = neg ∧ fpExp (encode neg n e) = (e + 127).toNat ∧ fpFrac (encode neg n e) = n % 2 ^ 23 := by
  have hm : (BitVec.ofNat 8 (e + 127).toNat ++ BitVec.ofNat 23 (n % 2 ^ 23) : BitVec 31).toNat = (e + 127).toNat * 2 ^ 23 + n % 2 ^ 23 := by
    rw [BitVec.toNat_append, ← Nat.shiftLeft_add_eq_or_of_lt (BitVec.isLt _), Nat.shiftLeft_eq, BitVec.toNat_ofNat, BitVec.toNat_ofNat,
      Nat.mod_mod, Nat.mod_eq_of_lt (by omega)]
  rw [encode, fpSign_withSign, fpExp_withSign, fpFrac_withSign, hm]
  exact ⟨rfl, by omega, by omega⟩

theorem encode_normalBits (neg : Bool) (n : ℕ) {e : ℤ} (h1 : -126 ≤ e) (h2 : e < 128) : NormalBits (encode neg n e) := by
  obtain ⟨-, he, -⟩ := encode_fields neg n (e := e) (by omega)
  rw [normalBits_iff, he]
  omega

/-- The significand rounded up to 2^24 is the next power of two: its exponent is one more, its fraction 0. -/
def carriedExp (n : ℕ) (q : ℤ) : ℤ := if n = 2 ^ 24 then q + 24 else q + 23

section
variable {n : ℕ} (hlo : 2 ^ 23 ≤ n) (hhi : n ≤ 2 ^ 24)
include hlo hhi

theorem carriedExp_bounds (q : ℤ) : (2 : ℝ) ^ carriedExp n q ≤ n * 2 ^ q ∧ (n : ℝ) * 2 ^ q < 2 ^ (carriedExp n q + 1) := by
  have key (k : ℤ) : (2 : ℝ) ^ (q + k) = 2 ^ k * 2 ^ q := by rw [zpow_add₀ two_ne_zero, mul_comm]
  rw [carriedExp]
  split_ifs with h
  · rw [add_assoc, key, key, h]
    constructor <;> gcongr <;> norm_num
  · have hn : n < 2 ^ 24 := by omega
    rw [add_assoc, key, key]
    constructor <;> gcongr <;> norm_num <;> exact_mod_cast ‹_›

theorem fpVal_encode (neg : Bool) {q : ℤ} (h1 : -126 ≤ carriedExp n q) (h2 : carriedExp n q < 128) :
    fpVal (encode neg n (carriedExp n q)) = signed neg n * 2 ^ q := by
  obtain ⟨hs, he, hf⟩ := encode_fields neg n (e := carriedExp n q) (by omega)
  have he0 : ¬(carriedExp n q + 127).toNat = 0 := by omega
  have hsign : ((signed neg n : ℤ) : ℚ) = (if neg then -1 else 1) * n := by cases neg <;> simp [signed]
  rw [fpVal_eq_man, hs, fpMan, fpScale, he, hf, if_neg he0, if_neg he0, Int.toNat_of_nonneg (by omega), hsign, mul_assoc, mul_assoc]
  congr 1
  unfold carriedExp
  split_ifs with h
  · subst h
    rw [show q + 24 + 127 - 150 = 1 + q by ring, zpow_add₀ two_ne_zero, ← mul_assoc]
    norm_num
  · rw [show q + 23 + 127 - 150 = q by ring, show 2 ^ 23 + n % 2 ^ 23 = n by omega]

end

/-- The encodings of the multiples of 2^-149 up to 2^-126. -/
theorem fpVal_withSign_small (neg : Bool) {k : ℕ} (hk : k ≤ 2 ^ 23) :
    fpVal (withSign neg (BitVec.ofNat 31 k)) = signed neg k * 2 ^ (-149 : ℤ) := by
  have hm : (BitVec.ofNat 31 k).toNat = k := by rw [BitVec.toNat_ofNat, Nat.mod_eq_of_lt (by omega)]
  have hmag : fpMag (withSign neg (BitVec.ofNat 31 k)) = k := by
    rw [fpMag, fpMan, fpExp_withSign, fpFrac_withSign, hm]
    rcases hk.eq_or_lt with rfl | hlt
    · rfl
    · rw [Nat.div_eq_of_lt hlt, if_pos rfl, Nat.mod_eq_of_lt hlt, Nat.zero_sub, pow_zero, mul_one]
  rw [fpVal_eq, fpUnits, fpSign_withSign, hmag, signed]

theorem small_finite (neg : Bool) {k : ℕ} (hk : k ≤ 2 ^ 23) :
    ¬NaNBits (withSign neg (BitVec.ofNat 31 k)) ∧ ¬InfBits (withSign neg (BitVec.ofNat 31 k)) := by
  rw [not_nan_not_inf_iff, fpExp_withSign, BitVec.toNat_ofNat, Nat.mod_eq_of_lt (by omega)]
  omega

/-! ### `Round` and `Underflow` (47 R284, R285) -/

theorem roundSingle_eq (mx : Dword) {x : Exact} {q : ℤ} {n : ℕ} (hq : x.ilog - 23 = q) (hn : x.roundTo (mxRC mx) q = n) :
    roundSingle mx x =
      if 128 ≤ carriedExp n q then (overflowResult (mxRC mx) x.neg, flagOE ||| flagPE)
      else if carriedExp n q < -126 then underflow mx x
      else (encode x.neg n (carriedExp n q), flagsIf (!x.isMultiple q) flagPE) := by
  subst hq hn
  rfl

/-- The underflow trap: no result is written (47 R285). -/
theorem underflow_unmasked {mx : Dword} (hum : mx.getLsbD 11 = false) (x : Exact) :
    underflow mx x = (zeroOf x.neg, flagUE ||| flagsIf (!x.isMultiple (-149)) flagPE) := by
  simp only [underflow, mxUM, hum, Bool.not_false, if_true]

/-- Flush to zero (10_state R46). -/
theorem underflow_flushed {mx : Dword} (hum : mx.getLsbD 11 = true) (hfz : mx.getLsbD 15 = true) (x : Exact) :
    underflow mx x = (zeroOf x.neg, flagUE ||| flagPE) := by
  simp only [underflow, mxUM, mxFZ, hum, hfz, Bool.not_true, Bool.false_eq_true, if_true, if_false]

/-- The denormal result of the masked response. -/
theorem underflow_denormal {mx : Dword} (hum : mx.getLsbD 11 = true) (hfz : mx.getLsbD 15 = false) (x : Exact) :
    underflow mx x =
      (withSign x.neg (BitVec.ofNat 31 (x.roundTo (mxRC mx) (-149))), flagsIf (!x.isMultiple (-149)) (flagUE ||| flagPE)) := by
  simp only [underflow, mxUM, mxFZ, hum, hfz, Bool.not_true, Bool.false_eq_true, if_false]

theorem overflowResult_eq_table (rc : Rounding) (neg : Bool) : overflowResult rc neg = overflowTable rc neg := by
  cases rc <;> cases neg <;> rfl

section
variable {x : Exact} {y : ℝ} (h : x.Describes y)
include h

theorem Exact.Describes.neg_of_neg (hy : y < 0) : x.neg = true := by
  by_contra hn
  have := h.sign
  rw [if_neg hn] at this
  linarith [abs_nonneg y]

theorem Exact.Describes.neg_of_pos (hy : 0 < y) : x.neg = false := by
  by_contra hn
  have := h.sign
  rw [if_pos (Bool.eq_true_of_not_eq_false hn)] at this
  linarith [abs_nonneg y]

theorem Exact.Describes.neg_iff (hy : y ≠ 0) : x.neg = true ↔ y < 0 := by
  refine ⟨fun hn => ?_, h.neg_of_neg⟩
  by_contra hlt
  have := h.neg_of_pos (lt_of_le_of_ne (not_lt.mp hlt) hy.symm)
  simp [hn] at this

/-- A magnitude below 2^-126 rounds to a multiple of 2^-149 that is no more than 2^23 of them. -/
theorem Exact.Describes.roundTo_small (hsmall : |y| ≤ 2 ^ (-126 : ℤ)) (hq : x.sticky = true → x.exp < -149) (rc : Rounding) :
    x.roundTo rc (-149) ≤ 2 ^ 23 := by
  have hy : |y * 2 ^ (149 : ℤ)| ≤ ((2 ^ 23 : ℤ) : ℝ) := by
    rw [abs_mul, abs_of_pos (by positivity : (0 : ℝ) < 2 ^ (149 : ℤ))]
    calc |y| * 2 ^ (149 : ℤ) ≤ 2 ^ (-126 : ℤ) * 2 ^ (149 : ℤ) := by gcongr
      _ = ((2 ^ 23 : ℤ) : ℝ) := by norm_num
  have hround := h.roundsToInt hq rc
  rw [neg_neg] at hround
  obtain ⟨-, hle⟩ := hround.abs_bounds (a := 0) (by simp) hy
  rw [abs_signed] at hle
  exact_mod_cast hle

theorem underflow_correct (mx : Dword) (hy : y ≠ 0) (hsmall : |y| ≤ 2 ^ (-126 : ℤ)) (hq : x.sticky = true → x.exp < -149) :
    UnderflowsTo mx y (underflow mx x).1 (underflow mx x).2 := by
  have hmul := h.isMultiple_iff hq
  rw [UnderflowsTo]
  cases hum : mx.getLsbD 11
  · rw [if_pos rfl, underflow_unmasked hum]
    refine ⟨fun hd => ?_, fun hd => ?_⟩
    · rw [hmul.mpr hd]
      rfl
    · rw [Bool.eq_false_iff.mpr (hmul.not.mpr hd)]
      rfl
  rw [if_neg Bool.true_eq_false_eq_False]
  cases hfz : mx.getLsbD 15
  swap
  · rw [if_pos rfl, underflow_flushed hum hfz]
    exact ⟨fun hlt => by rw [h.neg_of_neg hlt]; rfl, fun hlt => by rw [h.neg_of_pos hlt]; rfl, rfl⟩
  rw [if_neg Bool.false_ne_true, underflow_denormal hum hfz]
  have hround := h.roundsToInt hq (mxRC mx)
  have hk := h.roundTo_small hsmall hq (mxRC mx)
  obtain ⟨hnan, hinf⟩ := small_finite x.neg hk
  have hiff := hmul.trans hround.multiple_iff
  refine ⟨signed x.neg (x.roundTo (mxRC mx) (-149)), hround, ?_, hnan, hinf, ?_, fun heq => ?_, fun hne => ?_⟩
  · rw [fpVal_withSign_small _ hk]
    push_cast
    rfl
  · rw [← h.neg_iff hy]
    exact iff_of_eq (congrArg (· = true) (fpSign_withSign x.neg _))
  · rw [hiff.mpr heq]
    rfl
  · rw [Bool.eq_false_iff.mpr (hiff.not.mpr hne)]
    rfl

/-- The integer part of at least 25 bits that a rest is left of reaches below the last place of the result. -/
theorem Exact.Describes.exp_lt (hs : x.sticky = true → 2 ^ 24 ≤ x.num) {q : ℤ} (hhi : |y| < 2 ^ (q + 24)) (hst : x.sticky = true) :
    x.exp < q := by
  have hnum : ((2 ^ 24 : ℕ) : ℝ) ≤ x.num := by exact_mod_cast hs hst
  have hlt : (2 : ℝ) ^ (24 + x.exp) < 2 ^ (q + 24) := by
    calc (2 : ℝ) ^ (24 + x.exp) = (2 ^ 24 : ℕ) * 2 ^ x.exp := by rw [zpow_add₀ two_ne_zero]; norm_num
      _ ≤ x.num * 2 ^ x.exp := by gcongr
      _ < |y| := h.above hst
      _ < 2 ^ (q + 24) := hhi
  have := (zpow_lt_zpow_iff_right₀ one_lt_two).mp hlt
  omega

end

/-- The rounded significand has 24 bits, or is 2^24. -/
theorem RoundsToInt.significand_bounds {rc : Rounding} {y : ℝ} {q n : ℤ} (h : RoundsToInt rc (y * 2 ^ (-q)) n)
    (hlo : 2 ^ (q + 23) ≤ |y|) (hhi : |y| < 2 ^ (q + 24)) : 2 ^ 23 ≤ |n| ∧ |n| ≤ 2 ^ 24 := by
  have hpow : (0 : ℝ) < 2 ^ (-q) := by positivity
  have habs : |y * 2 ^ (-q)| = |y| * 2 ^ (-q) := by rw [abs_mul, abs_of_pos hpow]
  have hcancel (k : ℤ) : (2 : ℝ) ^ (q + k) * 2 ^ (-q) = 2 ^ k := by
    rw [← zpow_add₀ two_ne_zero, show q + k + -q = k by ring]
  refine h.abs_bounds ?_ ?_ <;> rw [habs]
  · have := mul_le_mul_of_nonneg_right hlo hpow.le
    rw [hcancel] at this
    exact_mod_cast this
  · have := mul_le_mul_of_nonneg_right hhi.le hpow.le
    rw [hcancel] at this
    exact_mod_cast this

/-- `roundSingle` rounds every real number that its argument describes; where `sticky`, of an integer part of at least 25 bits. -/
theorem roundSingle_correct {x : Exact} {y : ℝ} (h : x.Describes y) (mx : Dword) (hn : 0 < x.num)
    (hs : x.sticky = true → 2 ^ 24 ≤ x.num) : RoundsTo mx y (roundSingle mx x).1 (roundSingle mx x).2 := by
  obtain ⟨hlo, hhi⟩ := h.abs_bounds hn
  have hy : y ≠ 0 := abs_pos.mp (lt_of_lt_of_le (by positivity) hlo)
  rw [show x.ilog = x.ilog - 23 + 23 by omega] at hlo
  rw [show x.ilog + 1 = x.ilog - 23 + 24 by omega] at hhi
  generalize hqdef : x.ilog - 23 = q at hlo hhi
  have hq := h.exp_lt hs hhi
  have hround := h.roundsToInt hq (mxRC mx)
  have hexact := (h.isMultiple_iff hq).trans hround.multiple_iff
  obtain ⟨hnlo, hnhi⟩ := hround.significand_bounds hlo hhi
  rw [abs_signed] at hnlo hnhi
  have habs : |((signed x.neg (x.roundTo (mxRC mx) q) : ℤ) : ℝ)| = x.roundTo (mxRC mx) q := by exact_mod_cast abs_signed _ _
  have hn1 : 2 ^ 23 ≤ x.roundTo (mxRC mx) q := by exact_mod_cast hnlo
  have hn2 : x.roundTo (mxRC mx) q ≤ 2 ^ 24 := by exact_mod_cast hnhi
  obtain ⟨helo, hehi⟩ := carriedExp_bounds hn1 hn2 q
  refine ⟨q, _, hlo, hhi, hround, ?_⟩
  rw [habs]
  generalize hndef : x.roundTo (mxRC mx) q = n at *
  rw [roundSingle_eq mx hqdef hndef]
  refine ⟨fun hover => ?overflow, fun hunder => ?underflow, fun hmin hmax => ?normal⟩
  case overflow =>
    have he : 128 < carriedExp n q + 1 := (zpow_lt_zpow_iff_right₀ one_lt_two).mp (hover.trans_lt hehi)
    rw [if_pos (show 128 ≤ carriedExp n q by omega), overflowResult_eq_table]
    exact ⟨fun hlt => by rw [h.neg_of_neg hlt], fun hlt => by rw [h.neg_of_pos hlt], rfl⟩
  case underflow =>
    have he : carriedExp n q < -126 := (zpow_lt_zpow_iff_right₀ one_lt_two).mp (helo.trans_lt hunder)
    have hq24 : q + 24 ≤ -126 := by
      rw [carriedExp] at he
      split at he <;> omega
    rw [if_neg (show ¬128 ≤ carriedExp n q by omega), if_pos he]
    exact underflow_correct h mx hy (hhi.le.trans (zpow_le_zpow_right₀ one_le_two hq24)) fun hst => by have := hq hst; omega
  case normal =>
    have he1 : -126 < carriedExp n q + 1 := (zpow_lt_zpow_iff_right₀ one_lt_two).mp (hmin.trans_lt hehi)
    have he2 : carriedExp n q < 128 := (zpow_lt_zpow_iff_right₀ one_lt_two).mp (helo.trans_lt hmax)
    rw [if_neg (show ¬128 ≤ carriedExp n q by omega), if_neg (show ¬carriedExp n q < -126 by omega)]
    refine ⟨encode_normalBits _ _ (by omega) he2, ?_, fun heq => ?_, fun hne => ?_⟩
    · rw [fpVal_encode hn1 hn2 _ (by omega) he2]
      push_cast
      rfl
    · rw [hexact.mpr heq]
      rfl
    · rw [Bool.eq_false_iff.mpr (hexact.not.mpr hne)]
      rfl

/-- A ratio with a sign describes its value. -/
theorem Exact.describes_of_eq {x : Exact} {y : ℝ} (hd : 0 < x.den) (hs : x.sticky = false)
    (hy : y = (if x.neg then -1 else 1) * (x.num / x.den) * 2 ^ x.exp) : x.Describes y := by
  have hpos : (0 : ℝ) ≤ x.num / x.den * 2 ^ x.exp := by positivity
  have habs : |y| = x.num / x.den * 2 ^ x.exp := by
    rw [hy, mul_assoc]
    split_ifs
    · rw [neg_one_mul, abs_neg, abs_of_nonneg hpos]
    · rw [one_mul, abs_of_nonneg hpos]
  refine ⟨hd, ?_, fun _ => habs, ?_, ?_, ?_⟩
  · rw [habs, hy, mul_assoc]
    split_ifs
    · rw [neg_one_mul]
    · rw [one_mul]
  all_goals simp [hs]

theorem Exact.describes_value {x : Exact} (hd : 0 < x.den) (hs : x.sticky = false) : x.Describes ((x.value : ℚ) : ℝ) :=
  Exact.describes_of_eq hd hs (by rw [Exact.value]; split_ifs <;> push_cast <;> rfl)

/-- Settles O47: the value of the ratio, or each real number above the integer part, is described by the fields (`roundSingle_correct`). -/
theorem roundingIsCorrect : Obligations.RoundingIsCorrect := by
  refine fun mx x hn hd => ⟨fun hs => ?exact, fun hs hden hnum y hlo hhi hneg => ?sticky⟩
  case exact => exact roundSingle_correct (Exact.describes_value hd hs) mx hn (by simp [hs])
  case sticky =>
    have hdesc : x.Describes y := by
      refine ⟨hd, ?_, by simp [hs], fun _ => hden, fun _ => hlo, fun _ => hhi⟩
      split_ifs with h
      · rw [abs_of_neg (hneg.mpr h), neg_neg]
      · rw [abs_of_nonneg (not_lt.mp (hneg.not.mpr h))]
    exact roundSingle_correct hdesc mx hn fun _ => hnum

/-! ### Exact results: integers times a power of two that reach no lower than the last place -/

section
variable {x : Exact} (hd : x.den = 1) (hs : x.sticky = false)
include hd

theorem Exact.ilog_of_den_one (hn : 0 < x.num) : x.ilog = x.num.log2 + x.exp := by
  have hl : x.atLeast x.num.log2 = true := by
    rw [Exact.atLeast_iff (by omega), hd, Nat.cast_one, div_one]
    exact_mod_cast Nat.log2_self_le hn.ne'
  have h1 : Nat.log2 1 = 0 := rfl
  rw [Exact.ilog, hd, h1, Nat.cast_zero, sub_zero, if_pos hl]

theorem Exact.scaled_of_le {q : ℤ} (hq : q ≤ x.exp) :
    x.scaledNum q = x.num * 2 ^ (x.exp - q).toNat ∧ x.scaledDen q = 1 := by
  rw [Exact.scaledNum, Exact.scaledDen, hd]
  rcases hq.eq_or_lt with rfl | hlt
  · simp
  · rw [if_neg (by omega), if_neg (by omega)]
    exact ⟨rfl, rfl⟩

include hs

theorem Exact.exact_of_le {q : ℤ} (hq : q ≤ x.exp) (rc : Rounding) :
    x.roundTo rc q = x.num * 2 ^ (x.exp - q).toNat ∧ x.isMultiple q = true := by
  obtain ⟨hnum, hden⟩ := Exact.scaled_of_le hd hq
  rw [Exact.roundTo, Exact.isMultiple, hnum, hden, hs]
  constructor
  · cases rc <;> simp [roundsAway, Nat.mod_one]
  · simp [Nat.mod_one]

end

theorem withSign_eq_or (neg : Bool) (m : BitVec 31) : withSign neg m = (if neg then 0x80000000#32 else 0#32) ||| m.setWidth 32 := by
  apply BitVec.eq_of_toNat_eq
  rw [withSign, BitVec.toNat_append, BitVec.toNat_or, BitVec.toNat_setWidth_of_le (by decide)]
  cases neg <;> rfl

/-- An integer of at most 24 bits times a power of two needs no rounding. -/
theorem roundSingle_exact (mx : Dword) {x : Exact} (hd : x.den = 1) (hs : x.sticky = false) (hn : 0 < x.num)
    (hl : x.num.log2 ≤ 23) :
    roundSingle mx x =
      if 128 ≤ x.num.log2 + x.exp then (overflowResult (mxRC mx) x.neg, flagOE ||| flagPE)
      else if x.num.log2 + x.exp < -126 then underflow mx x
      else (encode x.neg (x.num * 2 ^ (23 - x.num.log2)) (x.num.log2 + x.exp), noFlags) := by
  have hq : x.ilog - 23 = x.num.log2 + x.exp - 23 := by rw [Exact.ilog_of_den_one hd hn]
  obtain ⟨hround, hmult⟩ := Exact.exact_of_le hd hs (q := x.num.log2 + x.exp - 23) (by omega) (mxRC mx)
  rw [show (x.exp - (x.num.log2 + x.exp - 23)).toNat = 23 - x.num.log2 by omega] at hround
  have hlt : x.num * 2 ^ (23 - x.num.log2) < 2 ^ 24 := by
    calc x.num * 2 ^ (23 - x.num.log2) < 2 ^ (x.num.log2 + 1) * 2 ^ (23 - x.num.log2) := by
          gcongr
          exact Nat.lt_log2_self
      _ = 2 ^ 24 := by rw [← pow_add]; congr 1; omega
  have hcarry : carriedExp (x.num * 2 ^ (23 - x.num.log2)) (x.num.log2 + x.exp - 23) = x.num.log2 + x.exp := by
    rw [carriedExp, if_neg hlt.ne]
    ring
  rw [roundSingle_eq mx hq hround, hcarry, hmult]
  rfl

theorem roundSingle_two_pow (mx : Dword) (neg : Bool) (k : ℤ) :
    roundSingle mx ⟨neg, 1, 1, k, false⟩ =
      if 128 ≤ k then (overflowResult (mxRC mx) neg, flagOE ||| flagPE)
      else if k < -126 then underflow mx ⟨neg, 1, 1, k, false⟩
      else (encode neg (2 ^ 23) k, noFlags) := by
  have hlog : Nat.log2 1 = 0 := rfl
  simpa only [hlog, Nat.cast_zero, zero_add, one_mul, Nat.sub_zero] using
    roundSingle_exact mx (x := ⟨neg, 1, 1, k, false⟩) rfl rfl one_pos (by rw [hlog]; decide)

/-- The significand of a normal number has 24 bits. -/
theorem log2_fpMan {v : Dword} (h : NormalBits v) : (fpMan v).log2 = 23 := by
  obtain ⟨he, -⟩ := (normalBits_iff v).mp h
  have hf := fpFrac_lt v
  rw [fpMan, if_neg he, Nat.log2_eq_iff (by omega)]
  omega

theorem encode_fpMan {v : Dword} (h : NormalBits v) : encode (fpSign v) (fpMan v) (23 + fpScale v) = v := by
  obtain ⟨he, he'⟩ := (normalBits_iff v).mp h
  have hlt := fpExp_lt v
  have hf := fpFrac_lt v
  rw [fpScale, if_neg he, fpMan, if_neg he]
  obtain ⟨hs, hexp, hfrac⟩ := encode_fields (fpSign v) (2 ^ 23 + fpFrac v) (e := 23 + ((fpExp v : ℤ) - 150)) (by omega)
  exact fp_ext hs (by rw [hexp]; omega) (by rw [hfrac]; omega)

theorem zeroOf_eq (neg : Bool) : zeroOf neg = if neg then 0x80000000#32 else 0#32 := by cases neg <;> rfl

/-- Whether PE stands beside it or not, UE is set. -/
theorem flagUE_kept (c : Bool) : (flagUE ||| flagsIf c flagPE) &&& flagUE = flagUE := by cases c <;> decide

theorem setWidth_ofNat_small {k : ℕ} (hk : k ≤ 2 ^ 22) : (BitVec.ofNat 31 k).setWidth 32 = BitVec.ofNat 32 k := by
  apply BitVec.eq_of_toNat_eq
  rw [BitVec.toNat_setWidth_of_le (by decide), BitVec.toNat_ofNat, BitVec.toNat_ofNat, Nat.mod_eq_of_lt (by omega),
    Nat.mod_eq_of_lt (by omega)]

/-- Settles O48: none of these values needs rounding (`roundSingle_exact`). -/
theorem overflowUnderflowAndExactResults : Obligations.OverflowUnderflowAndExactResults := by
  refine ⟨fun mx neg e he => ?overflow, fun mx neg e he => ?underflow, fun mx v hv => ?normal⟩
  case overflow =>
    rw [roundSingle_two_pow, if_pos (by omega), overflowResult_eq_table]
    cases mxRC mx <;> cases neg <;> rfl
  case underflow =>
    simp only [roundSingle_two_pow, if_neg (show ¬128 ≤ -(e : ℤ) by omega), if_pos (show -(e : ℤ) < -126 by omega)]
    refine ⟨fun hum hfz => ?_, fun hum => ?_, fun hum hfz he' => ?_⟩
    · rw [underflow_flushed hum hfz, zeroOf_eq]
    · rw [underflow_unmasked hum]
      exact flagUE_kept _
    · obtain ⟨hround, hmult⟩ := Exact.exact_of_le (x := ⟨neg, 1, 1, -(e : ℤ), false⟩) rfl rfl (q := -149)
        (by show -149 ≤ -(e : ℤ); omega) (mxRC mx)
      have hpow : 1 * 2 ^ (-(e : ℤ) - -149).toNat = 2 ^ (149 - e) := by
        rw [one_mul, show (-(e : ℤ) - -149).toNat = 149 - e by omega]
      rw [underflow_denormal hum hfz, hround, hmult, hpow, withSign_eq_or, setWidth_ofNat_small (Nat.pow_le_pow_right two_pos (by omega))]
      rfl
  case normal =>
    obtain ⟨he, he'⟩ := (normalBits_iff v).mp hv
    have hlt := fpExp_lt v
    have hscale : fpScale v = fpExp v - 150 := if_neg he
    have hlog := log2_fpMan hv
    have hpos : 0 < fpMan v := by
      rw [fpMan, if_neg he]
      omega
    have key := roundSingle_exact mx (x := ⟨v.getLsbD 31, fpMan v, 1, fpScale v, false⟩) rfl rfl hpos hlog.le
    simp only [hlog, Nat.sub_self, pow_zero, mul_one, Nat.cast_ofNat] at key
    rw [key, if_neg (by omega), if_neg (by omega)]
    exact congrArg (·, noFlags) (encode_fpMan hv)

end Sys2Proof.Machine
end

section
/-! PROOFS. The operations that round: sums, products, quotients and square roots of finite numbers (47 R286), and the conversions from and
to integers (48 R321). -/

namespace Sys2Proof.Machine

/-! ### Arithmetic of finite numbers (47 R286 steps 6 and 7) -/

theorem rounded_correct (mx : Dword) (pre : FpFlags) {x : Exact} (hn : 0 < x.num) (hd : 0 < x.den) (hs : x.sticky = false) :
    RoundsTo mx ((x.value : ℚ) : ℝ) (rounded mx pre x).res (rounded mx pre x).post :=
  roundSingle_correct (Exact.describes_value hd hs) mx hn (by simp [hs])

theorem Exact.value_ofInt (z e : ℤ) : (Exact.ofInt z e).value = z * 2 ^ e := by
  have hz : (z : ℚ) = (if z < 0 then -1 else 1) * z.natAbs := by
    rw [Nat.cast_natAbs]
    split_ifs with h
    · rw [abs_of_neg h]
      push_cast
      ring
    · rw [abs_of_nonneg (not_lt.mp h), one_mul]
  simp only [Exact.value, Exact.ofInt, decide_eq_true_eq, Nat.cast_one, div_one]
  rw [← hz]

theorem sign_xor (s t : Bool) : (if s ^^ t then -1 else 1 : ℚ) = (if s then -1 else 1) * (if t then -1 else 1) := by
  cases s <;> cases t <;> norm_num

section
variable {a b : Dword}

theorem fpMan_pos (h : ¬ZeroBits a) : 0 < fpMan a := by
  rw [zeroBits_iff] at h
  rw [fpMan]
  split_ifs <;> omega

theorem value_product (a b : Dword) :
    Exact.value ⟨fpSign a ^^ fpSign b, fpMan a * fpMan b, 1, fpScale a + fpScale b, false⟩ = fpVal a * fpVal b := by
  simp only [Exact.value, fpVal_eq_man, sign_xor, zpow_add₀ (two_ne_zero (α := ℚ))]
  push_cast
  ring

theorem value_quotient (a b : Dword) :
    Exact.value ⟨fpSign a ^^ fpSign b, fpMan a, fpMan b, fpScale a - fpScale b, false⟩ = fpVal a / fpVal b := by
  have hsign : (if fpSign b then -1 else 1 : ℚ) = (if fpSign b then -1 else 1 : ℚ)⁻¹ := by split_ifs <;> norm_num
  simp only [Exact.value, fpVal_eq_man, sign_xor, zpow_sub₀ (two_ne_zero (α := ℚ))]
  rw [div_eq_mul_inv _ (_ * _ * _), mul_inv, mul_inv, ← hsign]
  ring

theorem fpAdd_rounds (mx : Dword) (hna : ¬NaNBits a) (hia : ¬InfBits a) (hnb : ¬NaNBits b) (hib : ¬InfBits b)
    (hsum : fpVal a + fpVal b ≠ 0) :
    RoundsTo mx ((fpVal a + fpVal b : ℚ) : ℝ) (fpAdd mx a b).res (fpAdd mx a b).post ∧ (fpAdd mx a b).pre = denormalFlag a b := by
  have hz : fpUnits a + fpUnits b ≠ 0 := (fpVal_add_eq_zero_iff a b).not.mp hsum
  have hval : fpVal a + fpVal b = (Exact.ofInt (fpUnits a + fpUnits b) (-149)).value := by
    rw [Exact.value_ofInt, fpVal_eq, fpVal_eq]
    push_cast
    ring
  rw [fpAdd_eq, if_neg (not_or.mpr ⟨hna, hnb⟩), if_neg fun h => hia h.1, if_neg hia, if_neg hib, if_neg hz, hval]
  exact ⟨rounded_correct mx _ (Int.natAbs_pos.mpr hz) one_pos rfl, rfl⟩

end

/-- Settles O46: the exact ratio that is rounded has the value of the sum, the product or the quotient; a difference is a sum. -/
theorem arithmeticRoundsTheExactValue : Obligations.ArithmeticRoundsTheExactValue := by
  intro mx a b de hna hia hnb hib
  have hnan : ¬(NaNBits a ∨ NaNBits b) := not_or.mpr ⟨hna, hnb⟩
  simp only [← denormalFlag_eq]
  refine ⟨fun hsum => fpAdd_rounds mx hna hia hnb hib hsum, fun hdiff => ?sub, fun hza hzb => ⟨?mul, ?div⟩⟩
  case sub =>
    rw [sub_eq_add_neg, ← fpVal_negate] at hdiff ⊢
    rw [fpSub_eq_fpAdd hna hnb, ← denormalFlag_negate]
    exact fpAdd_rounds mx hna hia ((nanBits_negate b).not.mpr hnb) ((infBits_negate b).not.mpr hib) hdiff
  case mul =>
    rw [fpMul_eq, if_neg hnan, if_neg (by tauto), if_neg (not_or.mpr ⟨hia, hib⟩), if_neg (not_or.mpr ⟨hza, hzb⟩), ← value_product]
    exact ⟨rounded_correct mx _ (Nat.mul_pos (fpMan_pos hza) (fpMan_pos hzb)) one_pos rfl, rfl⟩
  case div =>
    rw [fpDiv_eq, if_neg hnan, if_neg (by tauto), if_neg (by tauto), if_neg hia, if_neg (not_or.mpr ⟨hib, hza⟩), ← value_quotient]
    exact ⟨rounded_correct mx _ (fpMan_pos hza) (fpMan_pos hzb) rfl, rfl⟩

/-! ### The integer square root -/

theorem isqrtBits_bounds (n : ℕ) (k : ℕ) : ∀ r : ℕ, r * r ≤ n → n < (r + 2 ^ k) * (r + 2 ^ k) →
    isqrtBits n k r * isqrtBits n k r ≤ n ∧ n < (isqrtBits n k r + 1) * (isqrtBits n k r + 1) := by
  induction k with
  | zero => exact fun r hlo hhi => ⟨hlo, hhi⟩
  | succ k ih =>
    intro r hlo hhi
    rw [isqrtBits]
    split_ifs with h
    · exact ih _ h (by rwa [add_assoc, ← two_mul, ← pow_succ'])
    · exact ih _ hlo (not_le.mp h)

theorem isqrt_bounds {n : ℕ} (h : n < 2 ^ 214 * 2 ^ 214) : isqrt n * isqrt n ≤ n ∧ n < (isqrt n + 1) * (isqrt n + 1) :=
  isqrtBits_bounds n 214 0 (Nat.zero_le n) (by rwa [Nat.zero_add])

/-- The radicand of every finite number is in the range of `isqrt`, and its root has more than 25 bits. -/
theorem isqrt_radicand {m : ℕ} (h0 : 0 < m) (hm : m < 2 ^ 277) :
    isqrt (m * 2 ^ 151) * isqrt (m * 2 ^ 151) ≤ m * 2 ^ 151 ∧
      m * 2 ^ 151 < (isqrt (m * 2 ^ 151) + 1) * (isqrt (m * 2 ^ 151) + 1) ∧ 2 ^ 74 ≤ isqrt (m * 2 ^ 151) := by
  have hpow : 2 ^ 277 * 2 ^ 151 = 2 ^ 214 * 2 ^ 214 := by rw [← pow_add, ← pow_add]
  obtain ⟨hlo, hhi⟩ := isqrt_bounds (n := m * 2 ^ 151) (by rw [← hpow]; gcongr)
  refine ⟨hlo, hhi, ?_⟩
  by_contra hlt
  have hsq : (isqrt (m * 2 ^ 151) + 1) * (isqrt (m * 2 ^ 151) + 1) ≤ 2 ^ 74 * 2 ^ 74 := Nat.mul_le_mul (by omega) (by omega)
  have hone : 1 * 2 ^ 151 ≤ m * 2 ^ 151 := Nat.mul_le_mul_right _ h0
  omega

/-- The root of m 2^-149 is that of m 2^151 in units of 2^-150. -/
theorem sqrt_units (m : ℕ) : √((m : ℝ) * 2 ^ (-149 : ℤ)) = √((m * 2 ^ 151 : ℕ) : ℝ) * 2 ^ (-150 : ℤ) := by
  have hpow : (2 : ℝ) ^ (-149 : ℤ) = 2 ^ 151 * (2 ^ (-150 : ℤ)) ^ 2 := by norm_num
  rw [hpow, ← mul_assoc, Real.sqrt_mul (by positivity), Real.sqrt_sq (by positivity),
    Nat.cast_mul, Nat.cast_pow, Nat.cast_ofNat]

theorem sqrtExact_describes {m : ℕ} (h0 : 0 < m) (hm : m < 2 ^ 277) : (sqrtExact m).Describes √((m : ℝ) * 2 ^ (-149 : ℤ)) := by
  obtain ⟨hlo, hhi, -⟩ := isqrt_radicand h0 hm
  rw [sqrt_units]
  have habs : |√((m * 2 ^ 151 : ℕ) : ℝ) * 2 ^ (-150 : ℤ)| = √((m * 2 ^ 151 : ℕ) : ℝ) * 2 ^ (-150 : ℤ) := abs_of_nonneg (by positivity)
  refine ⟨one_pos, habs.symm, fun hs => ?exact, fun _ => rfl, fun hs => ?above, fun hs => ?below⟩ <;> rw [habs]
  case exact =>
    have hsq : isqrt (m * 2 ^ 151) * isqrt (m * 2 ^ 151) = m * 2 ^ 151 := bne_eq_false_iff_eq.mp hs
    have hreal : ((m * 2 ^ 151 : ℕ) : ℝ) = isqrt (m * 2 ^ 151) * isqrt (m * 2 ^ 151) := by exact_mod_cast hsq.symm
    have hroot : √((m * 2 ^ 151 : ℕ) : ℝ) = isqrt (m * 2 ^ 151) := by rw [hreal, Real.sqrt_mul_self (Nat.cast_nonneg _)]
    rw [hroot]
    simp [sqrtExact]
  case above =>
    have hlt : isqrt (m * 2 ^ 151) * isqrt (m * 2 ^ 151) < m * 2 ^ 151 := lt_of_le_of_ne hlo (bne_iff_ne.mp hs)
    have hroot : (isqrt (m * 2 ^ 151) : ℝ) < √((m * 2 ^ 151 : ℕ) : ℝ) := Real.lt_sqrt_of_sq_lt (by rw [sq]; exact_mod_cast hlt)
    exact mul_lt_mul_of_pos_right hroot (by positivity)
  case below =>
    have hroot : √((m * 2 ^ 151 : ℕ) : ℝ) < isqrt (m * 2 ^ 151) + 1 :=
      (Real.sqrt_lt' (by positivity)).mpr (by rw [sq]; exact_mod_cast hhi)
    exact mul_lt_mul_of_pos_right hroot (by positivity)

/-- The rounded number is within the binade of the number, or the power of two above it. -/
theorem RoundsToInt.magnitude_bounds {rc : Rounding} {y : ℝ} {q n : ℤ} (h : RoundsToInt rc (y * 2 ^ (-q)) n)
    (hlo : 2 ^ (q + 23) ≤ |y|) (hhi : |y| < 2 ^ (q + 24)) :
    (2 : ℝ) ^ (23 + q) ≤ |(n : ℝ)| * 2 ^ q ∧ |(n : ℝ)| * 2 ^ q ≤ 2 ^ (24 + q) := by
  obtain ⟨hnlo, hnhi⟩ := h.significand_bounds hlo hhi
  rw [zpow_add₀ two_ne_zero, zpow_add₀ two_ne_zero]
  constructor <;> gcongr
  · exact_mod_cast hnlo
  · exact_mod_cast hnhi

/-- A real number within the range of the normal numbers rounds to one of them: no overflow, no underflow. -/
theorem RoundsTo.normal {mx : Dword} {y : ℝ} {res : Dword} {post : FpFlags} (h : RoundsTo mx y res post) (hlo : 2 ^ (-126 : ℤ) ≤ |y|)
    (hhi : |y| < 2 ^ (127 : ℤ)) :
    ∃ q n : ℤ, 2 ^ (q + 23) ≤ |y| ∧ |y| < 2 ^ (q + 24) ∧ RoundsToInt (mxRC mx) (y * 2 ^ (-q)) n ∧ NormalBits res ∧
      ((fpVal res : ℚ) : ℝ) = n * 2 ^ q ∧ (y = n * 2 ^ q → post = noFlags) ∧ (y ≠ n * 2 ^ q → post = flagPE) := by
  obtain ⟨q, n, hqlo, hqhi, hround, -, -, hnormal⟩ := h
  obtain ⟨hnlo, hnhi⟩ := hround.magnitude_bounds hqlo hqhi
  have hq1 : -126 < q + 24 := (zpow_lt_zpow_iff_right₀ one_lt_two).mp (hlo.trans_lt hqhi)
  have hq2 : q + 23 < 127 := (zpow_lt_zpow_iff_right₀ one_lt_two).mp (hqlo.trans_lt hhi)
  have hmin : (2 : ℝ) ^ (-126 : ℤ) ≤ |(n : ℝ)| * 2 ^ q := (zpow_le_zpow_right₀ one_le_two (by omega)).trans hnlo
  have hmax : |(n : ℝ)| * 2 ^ q < 2 ^ (128 : ℤ) := hnhi.trans_lt (zpow_lt_zpow_right₀ one_lt_two (by omega))
  obtain ⟨hbits, hval, hexact, hinexact⟩ := hnormal hmin hmax
  exact ⟨q, n, hqlo, hqhi, hround, hbits, hval, hexact, hinexact⟩

/-- At most PE is signalled there. -/
theorem RoundsTo.post_normal {mx : Dword} {y : ℝ} {res : Dword} {post : FpFlags} (h : RoundsTo mx y res post)
    (hlo : 2 ^ (-126 : ℤ) ≤ |y|) (hhi : |y| < 2 ^ (127 : ℤ)) : post &&& ~~~flagPE = noFlags := by
  obtain ⟨q, n, -, -, -, -, -, hexact, hinexact⟩ := h.normal hlo hhi
  by_cases hy : y = n * 2 ^ q
  · rw [hexact hy]
    decide
  · rw [hinexact hy]
    decide

/-- A number by its sign and its magnitude. -/
theorem fpVal_eq_mag (v : Dword) :
    ((fpVal v : ℚ) : ℝ) = if fpSign v then -((fpMag v : ℝ) * 2 ^ (-149 : ℤ)) else (fpMag v : ℝ) * 2 ^ (-149 : ℤ) := by
  rw [fpVal_eq, fpUnits]
  split_ifs <;> push_cast <;> ring

theorem fpVal_of_positive {b : Dword} (hs : fpSign b = false) : ((fpVal b : ℚ) : ℝ) = fpMag b * 2 ^ (-149 : ℤ) := by
  rw [fpVal_eq_mag, if_neg (Bool.eq_false_iff.mp hs)]

/-- The root of every positive finite number is in the range of the normal numbers. -/
theorem sqrt_range {m : ℕ} (h0 : 0 < m) (hm : m < 2 ^ 277) :
    2 ^ (-126 : ℤ) ≤ |√((m : ℝ) * 2 ^ (-149 : ℤ))| ∧ |√((m : ℝ) * 2 ^ (-149 : ℤ))| < 2 ^ (127 : ℤ) := by
  have hone : (1 : ℝ) ≤ m := by exact_mod_cast h0
  have hmax : (m : ℝ) < 2 ^ (277 : ℤ) := by exact_mod_cast hm
  rw [abs_of_nonneg (Real.sqrt_nonneg _)]
  constructor
  · refine Real.le_sqrt_of_sq_le ?_
    calc ((2 : ℝ) ^ (-126 : ℤ)) ^ 2 ≤ 1 * 2 ^ (-149 : ℤ) := by norm_num
      _ ≤ m * 2 ^ (-149 : ℤ) := by gcongr
  · rw [Real.sqrt_lt' (by positivity)]
    calc (m : ℝ) * 2 ^ (-149 : ℤ) < 2 ^ (277 : ℤ) * 2 ^ (-149 : ℤ) := by gcongr
      _ = 2 ^ (128 : ℤ) := by rw [← zpow_add₀ two_ne_zero]; rfl
      _ < (2 ^ (127 : ℤ)) ^ 2 := by norm_num

/-- Settles O49: the integer root, with its sticky mark, describes the real root (`sqrtExact_describes`), which neither overflows nor
underflows. -/
theorem squareRootIsTheRoundedRoot : Obligations.SquareRootIsTheRoundedRoot := by
  intro mx b hnan
  rw [fpSqrt_eq, if_neg hnan]
  refine ⟨fun hz => ?zero, fun hz hs => ?negative, fun hi hs => ?inf, fun hz hi hs => ?root⟩
  case zero => rw [if_pos hz, Signalled.early]
  case negative => rw [if_neg hz, if_pos (show fpSign b = true from hs), Signalled.early, qnanIndef]
  case inf => rw [if_neg (by omega), if_neg (Bool.eq_false_iff.mp hs : ¬fpSign b = true), if_pos hi, Signalled.early]
  case root =>
    have hpos : 0 < fpMag b := Nat.pos_of_ne_zero ((fpMag_eq_zero_iff b).not.mpr hz)
    have hlt := fpMag_lt ((not_nan_not_inf_iff b).mp ⟨hnan, hi⟩)
    obtain ⟨-, -, hroot⟩ := isqrt_radicand hpos hlt
    obtain ⟨hlo, hhi⟩ := sqrt_range hpos hlt
    have hround := roundSingle_correct (sqrtExact_describes hpos hlt) mx (lt_of_lt_of_le (by positivity) hroot)
      fun _ => (Nat.pow_le_pow_right two_pos (by decide)).trans hroot
    rw [if_neg hz, if_neg (Bool.eq_false_iff.mp hs : ¬fpSign b = true), if_neg hi, fpVal_of_positive hs]
    refine ⟨hround, ?_, hround.post_normal hlo hhi⟩
    simp only [rounded, flagsIf, isDenormal_iff]

/-! ### Conversions between integers and numbers (48 R321) -/

theorem toInt_eq_zero_iff (v : Dword) : v.toInt = 0 ↔ v = 0#32 := by
  rw [← BitVec.toInt_inj, BitVec.toInt_zero]

theorem intToFp_zero (mx : Dword) : intToFp mx 0#32 = ⟨0#32, noFlags, noFlags⟩ := rfl

section
variable (mx : Dword) {v : Dword} (hv : v ≠ 0#32)
include hv

theorem intToFp_rounds : RoundsTo mx v.toInt (intToFp mx v).res (intToFp mx v).post := by
  have hne : v.toInt ≠ 0 := (toInt_eq_zero_iff v).not.mpr hv
  have hval : (((Exact.ofInt v.toInt 0).value : ℚ) : ℝ) = v.toInt := by
    rw [Exact.value_ofInt, zpow_zero, mul_one]
    exact Rat.cast_intCast _
  rw [intToFp, if_neg hne, ← hval]
  exact rounded_correct mx _ (Int.natAbs_pos.mpr hne) one_pos rfl

/-- Every doubleword but 0 is in the range of the normal numbers. -/
theorem toInt_range : 2 ^ (-126 : ℤ) ≤ |(v.toInt : ℝ)| ∧ |(v.toInt : ℝ)| < 2 ^ (127 : ℤ) := by
  have hlo : 1 ≤ |v.toInt| := Int.one_le_abs ((toInt_eq_zero_iff v).not.mpr hv)
  have hhi : |v.toInt| ≤ 2 ^ 31 := by
    have h1 := BitVec.le_toInt v
    have h2 := BitVec.toInt_lt (x := v)
    exact abs_le.mpr ⟨by omega, by omega⟩
  have hlo' : (1 : ℝ) ≤ |(v.toInt : ℝ)| := by exact_mod_cast hlo
  have hhi' : |(v.toInt : ℝ)| ≤ 2 ^ 31 := by exact_mod_cast hhi
  exact ⟨le_trans (by norm_num) hlo', lt_of_le_of_lt hhi' (by norm_num)⟩

end

/-- An integer of magnitude up to 2^24 is a multiple of its last place. -/
theorem multiple_of_abs_le {z q : ℤ} (hq : 2 ^ (q + 23) ≤ |(z : ℝ)|) (hz : |z| ≤ 2 ^ 24) : ∃ k : ℤ, (z : ℝ) = k * 2 ^ q := by
  have hz' : |(z : ℝ)| ≤ 2 ^ (24 : ℤ) := by exact_mod_cast hz
  have hle : q + 23 ≤ 24 := (zpow_le_zpow_iff_right₀ one_lt_two).mp (hq.trans hz')
  rcases (show q ≤ 0 ∨ q = 1 by omega) with h0 | rfl
  · refine ⟨z * 2 ^ (-q).toNat, ?_⟩
    have hone : (2 : ℝ) ^ (-q).toNat * 2 ^ q = 1 := by
      rw [← zpow_natCast, Int.toNat_of_nonneg (by omega), ← zpow_add₀ two_ne_zero, neg_add_cancel, zpow_zero]
    push_cast
    rw [mul_assoc, hone, mul_one]
  · have hmin : 2 ^ 24 ≤ |z| := by exact_mod_cast hq
    rcases abs_choice z with h | h
    · exact ⟨2 ^ 23, by rw [show z = 2 ^ 24 by omega]; norm_num⟩
    · exact ⟨-2 ^ 23, by rw [show z = -2 ^ 24 by omega]; norm_num⟩

/-- An integer of magnitude up to 2^24 converts to a number that has its value. -/
theorem intToFp_exact (mx : Dword) {v : Dword} (hlo : -(2 ^ 24) ≤ v.toInt) (hhi : v.toInt ≤ 2 ^ 24) :
    (intToFp mx v).post = noFlags ∧ ((fpVal (intToFp mx v).res : ℚ) : ℝ) = v.toInt ∧ fpExp (intToFp mx v).res ≠ 255 := by
  by_cases hv : v = 0#32
  · subst hv
    rw [intToFp_zero, fpVal_eq, (fpUnits_eq_zero_iff 0#32).mpr (by decide)]
    exact ⟨rfl, by simp, by decide⟩
  · obtain ⟨hmin, hmax⟩ := toInt_range hv
    obtain ⟨q, n, hqlo, -, hround, hbits, hval, hexact, -⟩ := (intToFp_rounds mx hv).normal hmin hmax
    have heq := hround.multiple_iff.mp (multiple_of_abs_le hqlo (abs_le.mpr ⟨hlo, hhi⟩))
    exact ⟨hexact heq, hval.trans heq.symm, ((normalBits_iff _).mp hbits).2⟩

theorem fpToInt_eq (rc : Rounding) (v : Dword) {x : Exact} {n : ℤ} (hx : Exact.ofInt (fpUnits v) (-149) = x)
    (hn : signed x.neg (x.roundTo rc 0) = n) :
    fpToInt rc v =
      if NaNBits v ∨ InfBits v then ⟨intIndef, flagIE, noFlags⟩
      else if n < -(2 ^ 31) ∨ n > 2 ^ 31 - 1 then ⟨intIndef, flagIE, noFlags⟩
      else ⟨BitVec.ofInt 32 n, noFlags, flagsIf (!x.isMultiple 0) flagPE⟩ := by
  subst hx hn
  simp only [fpToInt, Bool.or_eq_true, isNaN_iff, isInf_iff]
  rfl

/-- A finite number converts to its value rounded, where that fits (48 R321). -/
theorem fpToInt_rounds (rc : Rounding) {v : Dword} (hn : ¬NaNBits v) (hi : ¬InfBits v) :
    ∃ n : ℤ, RoundsToInt rc ((fpVal v : ℚ) : ℝ) n ∧
      (n < -(2 ^ 31) ∨ 2 ^ 31 - 1 < n → fpToInt rc v = ⟨0x80000000#32, flagIE, noFlags⟩) ∧
      (-(2 ^ 31) ≤ n → n ≤ 2 ^ 31 - 1 →
        fpToInt rc v = ⟨BitVec.ofInt 32 n, noFlags, if fpVal v = n then noFlags else flagPE⟩) := by
  have hdesc : (Exact.ofInt (fpUnits v) (-149)).Describes ((fpVal v : ℚ) : ℝ) := by
    rw [fpVal_eq, ← Exact.value_ofInt]
    exact Exact.describes_value one_pos rfl
  have hq : (Exact.ofInt (fpUnits v) (-149)).sticky = true → (Exact.ofInt (fpUnits v) (-149)).exp < 0 := nofun
  have hround := hdesc.roundsToInt hq rc
  have hmult := (hdesc.isMultiple_iff hq).trans hround.multiple_iff
  generalize hx : Exact.ofInt (fpUnits v) (-149) = x at hround hmult
  generalize hndef : signed x.neg (x.roundTo rc 0) = n at hround hmult
  rw [neg_zero, zpow_zero, mul_one] at hround
  rw [zpow_zero, mul_one] at hmult
  have hmult' : x.isMultiple 0 = true ↔ fpVal v = n := hmult.trans (by exact_mod_cast Iff.rfl)
  rw [fpToInt_eq rc v hx hndef, if_neg (not_or.mpr ⟨hn, hi⟩)]
  refine ⟨n, hround, fun h => by rw [if_pos h, intIndef], fun h1 h2 => ?_⟩
  rw [if_neg (by omega)]
  by_cases h : fpVal v = n
  · rw [if_pos h, hmult'.mpr h]
    rfl
  · rw [if_neg h, Bool.eq_false_iff.mpr (hmult'.not.mpr h)]
    rfl

/-- Settles O51: an integer of at most 24 bits is a multiple of its last place, so it is rounded to itself, and so is its number. -/
theorem integerConversionsRound : Obligations.IntegerConversionsRound := by
  refine ⟨intToFp_zero, fun mx v hv => ?_, fun mx v rc hlo hhi => ?_, fun rc v h => ?_, fun rc v hn hi => fpToInt_rounds rc hn hi⟩
  · obtain ⟨hmin, hmax⟩ := toInt_range hv
    exact ⟨intToFp_rounds mx hv, intToFp_pre mx v, (intToFp_rounds mx hv).post_normal hmin hmax⟩
  · obtain ⟨hpost, hval, hexp⟩ := intToFp_exact mx hlo hhi
    obtain ⟨hn, hi⟩ := (not_nan_not_inf_iff _).mpr hexp
    obtain ⟨n, hround, -, hfit⟩ := fpToInt_rounds rc hn hi
    rw [hval] at hround
    obtain rfl := hround.eq_of_int
    have hval' : fpVal (intToFp mx v).res = v.toInt := by exact_mod_cast hval
    refine ⟨intToFp_pre mx v, hpost, ?_⟩
    rw [hfit (by omega) (by omega), if_pos hval', BitVec.ofInt_toInt]
  · rw [fpToInt_eq rc v rfl rfl, if_pos h, intIndef]

end Sys2Proof.Machine
end

section
/-! PROOFS. The approximations (47 R290): a reciprocal rounded to nearest is within the error bound, so a result that meets R290 is there
whatever the free candidate is. -/

namespace Sys2Proof.Machine

/-! ### Approximations (47 R290): the rounded reciprocal is within the error bound -/

/-- The control word of the approximations: all masks 1, nearest, flush to zero. -/
def approxMx : Dword := 0x00009F80#32

theorem approxMx_rc : mxRC approxMx = .nearest := by decide

/-- Rounding to nearest is off by half a unit of the last place. -/
theorem RoundsToInt.nearest_error {y : ℝ} {q n : ℤ} (h : RoundsToInt .nearest (y * 2 ^ (-q)) n) (hlo : 2 ^ (q + 23) ≤ |y|) :
    |n * 2 ^ q - y| ≤ |y| * 2 ^ (-24 : ℤ) := by
  obtain ⟨hnear, -⟩ := h
  have hpow : (0 : ℝ) < 2 ^ q := by positivity
  have hcancel : (2 : ℝ) ^ (-q) * 2 ^ q = 1 := by rw [← zpow_add₀ two_ne_zero, neg_add_cancel, zpow_zero]
  have hdiff : n * 2 ^ q - y = -((y * 2 ^ (-q) - n) * 2 ^ q) := by rw [sub_mul, mul_assoc, hcancel, mul_one, neg_sub]
  rw [hdiff, abs_neg, abs_mul, abs_of_pos hpow]
  calc |y * 2 ^ (-q) - n| * 2 ^ q ≤ 1 / 2 * 2 ^ q := by gcongr; linarith
    _ = 2 ^ (q + 23) * 2 ^ (-24 : ℤ) := by
      rw [← zpow_add₀ two_ne_zero, show q + 23 + -24 = -1 + q by ring, zpow_add₀ two_ne_zero]
      norm_num
    _ ≤ |y| * 2 ^ (-24 : ℤ) := by gcongr

/-- Rounded with the control word of the approximations: a normal number with a relative error of at most 2^-24, or a flushed zero. -/
theorem RoundsTo.nearest_or_flushed {y : ℝ} {res : Dword} {post : FpFlags} (h : RoundsTo approxMx y res post)
    (hhi : |y| < 2 ^ (127 : ℤ)) :
    (NormalBits res ∧ |((fpVal res : ℚ) : ℝ) - y| ≤ |y| * 2 ^ (-24 : ℤ)) ∨
      (|y| < 2 ^ (-126 : ℤ) ∧ (y < 0 → res = 0x80000000#32) ∧ (0 < y → res = 0#32)) := by
  obtain ⟨q, n, hqlo, hqhi, hround, -, hunder, hnormal⟩ := h
  obtain ⟨hnlo, hnhi⟩ := hround.magnitude_bounds hqlo hqhi
  have hq : q + 23 < 127 := (zpow_lt_zpow_iff_right₀ one_lt_two).mp (hqlo.trans_lt hhi)
  rcases lt_or_ge (|(n : ℝ)| * 2 ^ q) (2 ^ (-126 : ℤ)) with hlt | hge
  · right
    have := (zpow_lt_zpow_iff_right₀ one_lt_two).mp (hnlo.trans_lt hlt)
    have hu := hunder hlt
    rw [UnderflowsTo, if_neg (by decide), if_pos (by decide)] at hu
    obtain ⟨hneg, hpos, -⟩ := hu
    exact ⟨hqhi.trans_le (zpow_le_zpow_right₀ one_le_two (by omega)), hneg, hpos⟩
  · left
    have hmax : |(n : ℝ)| * 2 ^ q < 2 ^ (128 : ℤ) := hnhi.trans_lt (zpow_lt_zpow_right₀ one_lt_two (by omega))
    obtain ⟨hbits, hval, -⟩ := hnormal hge hmax
    rw [approxMx_rc] at hround
    exact ⟨hbits, by rw [hval]; exact hround.nearest_error hqlo⟩

/-! ### The reciprocal -/

theorem abs_fpVal (v : Dword) : |((fpVal v : ℚ) : ℝ)| = fpMag v * 2 ^ (-149 : ℤ) := by
  have hpos : (0 : ℝ) ≤ fpMag v * 2 ^ (-149 : ℤ) := by positivity
  rw [fpVal_eq_mag]
  split_ifs
  · rw [abs_neg, abs_of_nonneg hpos]
  · exact abs_of_nonneg hpos

theorem fpMag_normal {v : Dword} (h : NormalBits v) : 2 ^ 23 ≤ fpMag v := by
  obtain ⟨he, -⟩ := (normalBits_iff v).mp h
  rw [fpMag, fpMan, if_neg he]
  exact (Nat.le_add_right _ _).trans (Nat.le_mul_of_pos_right _ (by positivity))

/-- What R290 asks of the reciprocal of a normal number. -/
def RcpIs (b x : Dword) : Prop :=
  (NormalBits x ∧ (fpUnits x * fpUnits b - 2 ^ 298).natAbs * 8192 ≤ 3 * 2 ^ 298) ∨
    (x = b &&& 0x80000000#32 ∧ 8189 * 2 ^ 275 < 8192 * fpMag b)

/-- A relative error of at most 2^-24 is one of at most 1.5 2^-12, in units. -/
theorem rcp_close_of_error {x b : Dword} (hb : ((fpVal b : ℚ) : ℝ) ≠ 0)
    (h : |((fpVal x : ℚ) : ℝ) - ((fpVal b : ℚ) : ℝ)⁻¹| ≤ |((fpVal b : ℚ) : ℝ)⁻¹| * 2 ^ (-24 : ℤ)) :
    (fpUnits x * fpUnits b - 2 ^ 298).natAbs * 8192 ≤ 3 * 2 ^ 298 := by
  have herr : |((fpVal x : ℚ) : ℝ) * ((fpVal b : ℚ) : ℝ) - 1| ≤ 2 ^ (-24 : ℤ) := by
    calc |((fpVal x : ℚ) : ℝ) * ((fpVal b : ℚ) : ℝ) - 1|
        = |((fpVal x : ℚ) : ℝ) - ((fpVal b : ℚ) : ℝ)⁻¹| * |((fpVal b : ℚ) : ℝ)| := by
          rw [← abs_mul, sub_mul, inv_mul_cancel₀ hb]
      _ ≤ |((fpVal b : ℚ) : ℝ)⁻¹| * 2 ^ (-24 : ℤ) * |((fpVal b : ℚ) : ℝ)| := by gcongr
      _ = 2 ^ (-24 : ℤ) := by rw [mul_right_comm, ← abs_mul, inv_mul_cancel₀ hb, abs_one, one_mul]
  have hunit : (2 : ℝ) ^ (-149 : ℤ) * 2 ^ (-149 : ℤ) * 2 ^ 298 = 1 := by
    rw [← zpow_natCast, ← zpow_add₀ two_ne_zero, ← zpow_add₀ two_ne_zero]
    rfl
  have hunits : ((fpUnits x * fpUnits b - 2 ^ 298 : ℤ) : ℝ) = (((fpVal x : ℚ) : ℝ) * ((fpVal b : ℚ) : ℝ) - 1) * 2 ^ 298 := by
    rw [fpVal_eq, fpVal_eq]
    push_cast
    linear_combination (fpUnits x * fpUnits b : ℝ) * -hunit
  have habs : ((fpUnits x * fpUnits b - 2 ^ 298).natAbs : ℝ) ≤ 2 ^ (-24 : ℤ) * 2 ^ 298 := by
    rw [Nat.cast_natAbs, Int.cast_abs, hunits, abs_mul, abs_of_pos (by positivity : (0 : ℝ) < 2 ^ 298)]
    gcongr
  have hreal : ((fpUnits x * fpUnits b - 2 ^ 298).natAbs : ℝ) * 8192 ≤ 3 * 2 ^ 298 := by
    have hsmall : (2 : ℝ) ^ (-24 : ℤ) * 8192 ≤ 3 := by norm_num
    calc ((fpUnits x * fpUnits b - 2 ^ 298).natAbs : ℝ) * 8192 ≤ 2 ^ (-24 : ℤ) * 2 ^ 298 * 8192 := by gcongr
      _ = 2 ^ (-24 : ℤ) * 8192 * 2 ^ 298 := by ring
      _ ≤ 3 * 2 ^ 298 := by gcongr
  exact_mod_cast hreal

theorem value_reciprocal (b : Dword) :
    ((Exact.value ⟨fpSign b, 2 ^ 298, fpMag b, -149, false⟩ : ℚ) : ℝ) = ((fpVal b : ℚ) : ℝ)⁻¹ := by
  have hunit : (2 : ℝ) ^ 298 * 2 ^ (-149 : ℤ) = (2 ^ (-149 : ℤ))⁻¹ := by
    rw [← zpow_natCast, ← zpow_add₀ two_ne_zero, ← zpow_neg]
    rfl
  have hquot : (2 : ℝ) ^ 298 / fpMag b * 2 ^ (-149 : ℤ) = ((fpMag b : ℝ) * 2 ^ (-149 : ℤ))⁻¹ := by
    rw [mul_inv, ← hunit, div_eq_mul_inv, mul_assoc, mul_left_comm]
  rw [fpVal_eq_mag, Exact.value]
  split_ifs
  · rw [inv_neg, ← hquot]
    push_cast
    ring
  · rw [← hquot]
    push_cast
    rw [one_mul]

theorem approxResult_rcp {b : Dword} (hb : NormalBits b) : RcpIs b (approxResult .rcp b) := by
  have hmag : (2 : ℝ) ^ 23 ≤ fpMag b := by exact_mod_cast fpMag_normal hb
  have habs : 2 ^ (-126 : ℤ) ≤ |((fpVal b : ℚ) : ℝ)| := by
    rw [abs_fpVal]
    calc (2 : ℝ) ^ (-126 : ℤ) = 2 ^ 23 * 2 ^ (-149 : ℤ) := by norm_num
      _ ≤ fpMag b * 2 ^ (-149 : ℤ) := by gcongr
  have hpos : 0 < |((fpVal b : ℚ) : ℝ)| := lt_of_lt_of_le (by positivity) habs
  simp only [approxResult, Bool.and_eq_true, beq_iff_eq, fpClass_normal_iff, rcpClose, rcpMayFlush, decide_eq_true_eq]
  split_ifs with hclose hflush
  · exact .inl hclose
  · exact .inr ⟨by rw [and_signBit, hflush.2], hflush.1⟩
  have hden : 0 < fpMag b := lt_of_lt_of_le (by positivity) (fpMag_normal hb)
  have hround := roundSingle_correct (Exact.describes_value (x := ⟨fpSign b, 2 ^ 298, fpMag b, -149, false⟩) hden rfl) approxMx
    (Nat.two_pow_pos 298) nofun
  rw [value_reciprocal] at hround
  have hrange : |((fpVal b : ℚ) : ℝ)⁻¹| < 2 ^ (127 : ℤ) := by
    rw [abs_inv, inv_lt_comm₀ hpos (by positivity), ← zpow_neg]
    exact lt_of_lt_of_le (zpow_lt_zpow_right₀ one_lt_two (by norm_num)) habs
  rcases hround.nearest_or_flushed hrange with ⟨hbits, herr⟩ | ⟨hsmall, hneg, hzero⟩
  · exact .inl ⟨hbits, rcp_close_of_error (abs_pos.mp hpos) herr⟩
  · refine .inr ⟨?_, ?_⟩
    · rw [and_signBit, zeroOf_eq]
      have hval := fpVal_eq_mag b
      split_ifs at hval ⊢
      · exact hneg (inv_lt_zero.mpr (by rw [hval]; exact neg_lt_zero.mpr (by positivity)))
      · exact hzero (inv_pos.mpr (by rw [hval]; positivity))
    · rw [abs_inv, inv_lt_comm₀ hpos (by positivity), ← zpow_neg, abs_fpVal] at hsmall
      have hlt : (2 : ℝ) ^ 275 < fpMag b := by
        rw [← mul_lt_mul_iff_of_pos_right (by positivity : (0 : ℝ) < 2 ^ (-149 : ℤ))]
        calc (2 : ℝ) ^ 275 * 2 ^ (-149 : ℤ) = 2 ^ (- -126 : ℤ) := by
              rw [← zpow_natCast, ← zpow_add₀ two_ne_zero]
              rfl
          _ < fpMag b * 2 ^ (-149 : ℤ) := hsmall
      have hlt' : 2 ^ 275 < fpMag b := by exact_mod_cast hlt
      calc 8189 * 2 ^ 275 < 8192 * 2 ^ 275 := by gcongr; norm_num
        _ ≤ 8192 * fpMag b := by gcongr

/-! ### The reciprocal square root -/

/-- What R290 asks of the reciprocal square root of a positive normal number. -/
def RsqrtIs (b x : Dword) : Prop :=
  NormalBits x ∧ x.getLsbD 31 = false ∧
    8189 ^ 2 * 2 ^ 447 ≤ fpMag x ^ 2 * fpMag b * 8192 ^ 2 ∧ fpMag x ^ 2 * fpMag b * 8192 ^ 2 ≤ 8195 ^ 2 * 2 ^ 447

/-- A reciprocal of the integer root with a relative error of at most 2^-24 is one of the exact root with at most 1.5 2^-12. -/
theorem rsqrt_close_of_isqrt {m r M P : ℕ} (hr : 2 ^ 20 ≤ r) (hlo : r * r ≤ M) (hhi : M ≤ (r + 1) * (r + 1))
    (hmin : P * 16777215 ≤ m * r * 2 ^ 24) (hmax : m * r * 2 ^ 24 ≤ P * 16777217) :
    8189 ^ 2 * P ^ 2 ≤ m ^ 2 * M * 8192 ^ 2 ∧ m ^ 2 * M * 8192 ^ 2 ≤ 8195 ^ 2 * P ^ 2 := by
  have hsmall : m * 2 ^ 20 ≤ m * r := Nat.mul_le_mul_left m hr
  constructor
  · have hlow : 8189 * P ≤ 8192 * (m * r) := by omega
    calc 8189 ^ 2 * P ^ 2 = (8189 * P) ^ 2 := (mul_pow _ _ _).symm
      _ ≤ (8192 * (m * r)) ^ 2 := Nat.pow_le_pow_left hlow 2
      _ = m ^ 2 * (r * r) * 8192 ^ 2 := by ring
      _ ≤ m ^ 2 * M * 8192 ^ 2 := by gcongr
  · have hhigh : 8192 * (m * r + m) ≤ 8195 * P := by omega
    calc m ^ 2 * M * 8192 ^ 2 ≤ m ^ 2 * ((r + 1) * (r + 1)) * 8192 ^ 2 := by gcongr
      _ = (8192 * (m * r + m)) ^ 2 := by ring
      _ ≤ (8195 * P) ^ 2 := Nat.pow_le_pow_left hhigh 2
      _ = 8195 ^ 2 * P ^ 2 := mul_pow _ _ _

theorem two_pow_150 : (2 : ℝ) ^ 150 = 2 ^ 299 * 2 ^ (-149 : ℤ) := by
  rw [← zpow_natCast, ← zpow_natCast, ← zpow_add₀ two_ne_zero]
  rfl

theorem value_reciprocal_root (r : ℕ) : ((Exact.value ⟨false, 2 ^ 300, r, -150, false⟩ : ℚ) : ℝ) = 2 ^ 150 / r := by
  have hunit : (2 : ℝ) ^ 300 * 2 ^ (-150 : ℤ) = 2 ^ 150 := by
    rw [← zpow_natCast, ← zpow_natCast, ← zpow_add₀ two_ne_zero]
    rfl
  rw [Exact.value, if_neg Bool.false_ne_true, ← hunit]
  push_cast
  ring

/-- A number within a relative error of 2^-24 of 2^150 / r is positive; the error in units. -/
theorem units_of_error {x : Dword} {r : ℕ} (hr : 0 < r)
    (h : |((fpVal x : ℚ) : ℝ) - 2 ^ 150 / r| ≤ |2 ^ 150 / (r : ℝ)| * 2 ^ (-24 : ℤ)) :
    fpSign x = false ∧ 2 ^ 299 * 16777215 ≤ fpMag x * r * 2 ^ 24 ∧ fpMag x * r * 2 ^ 24 ≤ 2 ^ 299 * 16777217 := by
  have hpos : (0 : ℝ) < r := by exact_mod_cast hr
  have hunit : (0 : ℝ) < 2 ^ (-149 : ℤ) / r := by positivity
  have hdiff : ((fpVal x : ℚ) : ℝ) - 2 ^ 150 / r = (fpUnits x * r - 2 ^ 299) * (2 ^ (-149 : ℤ) / r) := by
    rw [fpVal_eq, two_pow_150]
    push_cast
    generalize (2 : ℝ) ^ (-149 : ℤ) = t
    field_simp
  have herr : |(fpUnits x * r - 2 ^ 299 : ℝ)| ≤ 2 ^ 299 * 2 ^ (-24 : ℤ) := by
    rw [hdiff, two_pow_150, mul_div_assoc, abs_mul, abs_mul, abs_of_pos hunit, abs_of_pos (by positivity : (0 : ℝ) < 2 ^ 299),
      mul_right_comm] at h
    exact le_of_mul_le_mul_right h hunit
  have hscale : (2 : ℝ) ^ 299 * 2 ^ (-24 : ℤ) * 2 ^ 24 = 2 ^ 299 := by rw [mul_assoc]; norm_num
  obtain ⟨hlo, hhi⟩ := abs_le.mp herr
  have hlow : (2 : ℝ) ^ 299 * 16777215 ≤ fpUnits x * r * 2 ^ 24 := by linarith
  have hhigh : fpUnits x * r * 2 ^ 24 ≤ (2 : ℝ) ^ 299 * 16777217 := by linarith
  have hsign : fpSign x = false := by
    by_contra hneg
    rw [fpUnits, if_pos (Bool.eq_true_of_not_eq_false hneg), Int.cast_neg, neg_mul, neg_mul] at hlow
    exact hlow.not_gt ((neg_nonpos.mpr (by positivity)).trans_lt (by positivity))
  rw [fpUnits, if_neg (Bool.eq_false_iff.mp hsign)] at hlow hhigh
  exact ⟨hsign, by exact_mod_cast hlow, by exact_mod_cast hhigh⟩

theorem NormalBits.fpExp_ne {v : Dword} (h : NormalBits v) : fpExp v ≠ 255 := by
  obtain ⟨-, hexp⟩ := (normalBits_iff v).mp h
  exact hexp

/-- The bounds of R290 are those on the radicand, scaled by 2^151. -/
theorem rsqrt_bounds_of_scaled {m g : ℕ}
    (h : 8189 ^ 2 * (2 ^ 299) ^ 2 ≤ m ^ 2 * (g * 2 ^ 151) * 8192 ^ 2 ∧ m ^ 2 * (g * 2 ^ 151) * 8192 ^ 2 ≤ 8195 ^ 2 * (2 ^ 299) ^ 2) :
    8189 ^ 2 * 2 ^ 447 ≤ m ^ 2 * g * 8192 ^ 2 ∧ m ^ 2 * g * 8192 ^ 2 ≤ 8195 ^ 2 * 2 ^ 447 := by
  have hpow : (2 ^ 299) ^ 2 = 2 ^ 447 * 2 ^ 151 := by rw [← pow_mul, ← pow_add]
  have hscale : m ^ 2 * (g * 2 ^ 151) * 8192 ^ 2 = m ^ 2 * g * 8192 ^ 2 * 2 ^ 151 := by ring
  rw [hpow, hscale, ← mul_assoc, ← mul_assoc] at h
  obtain ⟨hlo, hhi⟩ := h
  have hpos : 0 < 2 ^ 151 := by positivity
  exact ⟨Nat.le_of_mul_le_mul_right hlo hpos, Nat.le_of_mul_le_mul_right hhi hpos⟩

/-- The root of a normal number is between 2^74 and 2^214: its reciprocal is in the range of the normal numbers. -/
theorem reciprocal_root_range {r : ℕ} (hlo : 2 ^ 74 ≤ r) (hhi : r < 2 ^ 214) :
    2 ^ (-126 : ℤ) ≤ |2 ^ 150 / (r : ℝ)| ∧ |2 ^ 150 / (r : ℝ)| < 2 ^ (127 : ℤ) := by
  have hlo' : (2 : ℝ) ^ 74 ≤ r := by exact_mod_cast hlo
  have hhi' : (r : ℝ) ≤ 2 ^ 214 := by exact_mod_cast hhi.le
  have hpos : (0 : ℝ) < r := lt_of_lt_of_le (by positivity) hlo'
  rw [abs_of_pos (by positivity), le_div_iff₀ hpos, div_lt_iff₀ hpos]
  constructor
  · calc (2 : ℝ) ^ (-126 : ℤ) * r ≤ 2 ^ (-126 : ℤ) * 2 ^ 214 := by gcongr
      _ ≤ 2 ^ 150 := by norm_num
  · calc (2 : ℝ) ^ 150 < 2 ^ (127 : ℤ) * 2 ^ 74 := by norm_num
      _ ≤ 2 ^ (127 : ℤ) * (r : ℝ) := by gcongr

theorem isqrt_lt {m : ℕ} (hm : m < 2 ^ 277) (h : isqrt (m * 2 ^ 151) * isqrt (m * 2 ^ 151) ≤ m * 2 ^ 151) :
    isqrt (m * 2 ^ 151) < 2 ^ 214 := by
  refine Nat.mul_self_lt_mul_self_iff.mp (h.trans_lt ?_)
  calc m * 2 ^ 151 < 2 ^ 277 * 2 ^ 151 := by gcongr
    _ = 2 ^ 214 * 2 ^ 214 := by rw [← pow_add, ← pow_add]

theorem approxResult_rsqrt {b : Dword} (hb : NormalBits b) : RsqrtIs b (approxResult .rsqrt b) := by
  have hpos : 0 < fpMag b := lt_of_lt_of_le (by positivity) (fpMag_normal hb)
  have hmag : fpMag b < 2 ^ 277 := fpMag_lt hb.fpExp_ne
  obtain ⟨hlo, hhi, hbig⟩ := isqrt_radicand hpos hmag
  simp only [approxResult, Bool.and_eq_true, beq_iff_eq, Bool.not_eq_true', fpClass_normal_iff, rsqrtClose, decide_eq_true_eq]
  split_ifs with hclose
  · obtain ⟨⟨hnormal, hsign⟩, hbounds⟩ := hclose
    exact ⟨hnormal, hsign, hbounds⟩
  have hroot : 0 < isqrt (fpMag b * 2 ^ 151) := lt_of_lt_of_le (by positivity) hbig
  obtain ⟨hmin, hmax⟩ := reciprocal_root_range hbig (isqrt_lt hmag hlo)
  have hround := roundSingle_correct
    (Exact.describes_value (x := ⟨false, 2 ^ 300, isqrt (fpMag b * 2 ^ 151), -150, false⟩) hroot rfl) approxMx
    (Nat.two_pow_pos 300) nofun
  rw [value_reciprocal_root] at hround
  rcases hround.nearest_or_flushed hmax with ⟨hnormal, herr⟩ | ⟨hflush, -⟩
  · obtain ⟨hsign, hlow, hhigh⟩ := units_of_error hroot herr
    exact ⟨hnormal, hsign, rsqrt_bounds_of_scaled
      (rsqrt_close_of_isqrt ((Nat.pow_le_pow_right two_pos (by decide)).trans hbig) hlo hhi.le hlow hhigh)⟩
  · exact absurd hflush hmin.not_gt

/-! ### The approximations, case by case (47 R290) -/

section
variable (b : Dword)

theorem fpRcp_eq :
    fpRcp b =
      if NaNBits b then quiet b
      else if InfBits b then zeroOf (fpSign b)
      else if ZeroBits b ∨ DenormalBits b then infOf (fpSign b)
      else approxResult .rcp b := by
  simp only [fpRcp, Bool.or_eq_true, isNaN_iff, isInf_iff, isZero_iff, isDenormal_iff]

theorem fpRsqrt_eq :
    fpRsqrt b =
      if NaNBits b then quiet b
      else if ZeroBits b then infOf (fpSign b)
      else if fpSign b then qnanIndef
      else if InfBits b then zeroOf false
      else if DenormalBits b then infOf false
      else approxResult .rsqrt b := by
  simp only [fpRsqrt, isNaN_iff, isInf_iff, isZero_iff, isDenormal_iff]

end

/-- The result of a reciprocal. -/
def RcpResult (b x : Dword) : Prop :=
  (NaNBits b → x = b ||| 0x00400000#32) ∧
    (ZeroBits b ∨ DenormalBits b → x = (b &&& 0x80000000#32) ||| 0x7F800000#32) ∧
    (InfBits b → x = b &&& 0x80000000#32) ∧
    (NormalBits b → RcpIs b x)

/-- The result of a reciprocal square root. -/
def RsqrtResult (b x : Dword) : Prop :=
  (NaNBits b → x = b ||| 0x00400000#32) ∧
    (ZeroBits b → x = (b &&& 0x80000000#32) ||| 0x7F800000#32) ∧
    (¬NaNBits b → ¬ZeroBits b → b.getLsbD 31 → x = 0xFFC00000#32) ∧
    (InfBits b → b.getLsbD 31 = false → x = 0#32) ∧
    (DenormalBits b → b.getLsbD 31 = false → x = 0x7F800000#32) ∧
    (NormalBits b → b.getLsbD 31 = false → RsqrtIs b x)

theorem fpRcp_result (b : Dword) : RcpResult b (fpRcp b) := by
  rw [fpRcp_eq]
  refine ⟨fun h => ?nan, fun h => ?small, fun h => ?inf, fun h => ?normal⟩
  case nan => rw [if_pos h, quiet]
  case small => rw [if_neg (by omega), if_neg (by omega), if_pos h, and_signBit, zeroOf_or_inf]
  case inf => rw [if_neg (by omega), if_pos h, and_signBit]
  case normal =>
    rw [if_neg (by omega), if_neg (by omega), if_neg (by omega)]
    exact approxResult_rcp h

theorem fpRsqrt_result (b : Dword) : RsqrtResult b (fpRsqrt b) := by
  have hpositive (hs : b.getLsbD 31 = false) : ¬fpSign b = true := Bool.eq_false_iff.mp hs
  rw [fpRsqrt_eq]
  refine ⟨fun h => ?nan, fun h => ?zero, fun hnan hzero hs => ?negative, fun h hs => ?inf, fun h hs => ?denormal, fun h hs => ?normal⟩
  case nan => rw [if_pos h, quiet]
  case zero => rw [if_neg (by omega), if_pos h, and_signBit, zeroOf_or_inf]
  case negative => rw [if_neg hnan, if_neg hzero, if_pos (show fpSign b = true from hs), qnanIndef]
  case inf =>
    rw [if_neg (by omega), if_neg (by omega), if_neg (hpositive hs), if_pos h]
    rfl
  case denormal =>
    rw [if_neg (by omega), if_neg (by omega), if_neg (hpositive hs), if_neg (by omega), if_pos h]
    rfl
  case normal =>
    rw [if_neg (by omega), if_neg (by omega), if_neg (hpositive hs), if_neg (by omega), if_neg (by omega)]
    exact approxResult_rsqrt h

section
variable {i : Instr} {s : State} {r : Reg} {rm : RM} {f : Dword → Dword} {P : Dword → Dword → Prop}

/-- An approximation on four elements, in the binary frame that ignores the destination. -/
theorem xmmCompletes_approx_packed (e : exec i s = (xmmBinary xmm128 (fun _ v => ofElems fun k => f (elem 32 v k)) s r rm).outcome)
    (hc : xmmReady s) (hr : reachable .read 16 true s rm) (hf : ∀ b, P b (f b)) :
    XmmCompletes i s r fun x => ∀ k < 4, P (elem 32 (srcXm s rm) k) (elem 32 x k) :=
  xmmCompletes_binary e hc (xmm128_ok hr) fun k hk => by rw [elem_ofElems _ hk]; exact hf _

/-- An approximation on element 0. -/
theorem xmmCompletes_approx_scalar (e : exec i s = (xmmBinary xmm32 (fun d v => lowElem d (f v)) s r rm).outcome)
    (hc : xmmReady s) (hr : reachable .read 4 false s rm) (hf : ∀ b, P b (f b)) :
    XmmCompletes i s r fun x => P (srcXm32 s rm) (elem 32 x 0) ∧ x.extractLsb' 32 96 = (s.xm r).extractLsb' 32 96 :=
  xmmCompletes_binary e hc (xmm32_ok hr) ⟨by rw [elem_lowElem_zero]; exact hf _, lowElem_high _ _⟩

end

/-- Settles O43: the approximations meet the fixed cases and the bound (`fpRcp_result`, `fpRsqrt_result`), in the binary frame. -/
theorem approximationResults : Obligations.ApproximationResults := by
  intro s r rm hc
  refine ⟨fun hr => ⟨?rcpps, ?rsqrtps⟩, fun hr => ⟨?rcpss, ?rsqrtss⟩⟩
  case rcpps => exact (xmmCompletes_approx_packed (i := .rcpps r rm) (P := RcpResult) rfl hc hr fpRcp_result :)
  case rsqrtps => exact (xmmCompletes_approx_packed (i := .rsqrtps r rm) (P := RsqrtResult) rfl hc hr fpRsqrt_result :)
  case rcpss => exact (xmmCompletes_approx_scalar (i := .rcpss r rm) (P := RcpResult) rfl hc hr fpRcp_result :)
  case rsqrtss => exact (xmmCompletes_approx_scalar (i := .rsqrtss r rm) (P := RsqrtResult) rfl hc hr fpRsqrt_result :)

end Sys2Proof.Machine
end

section
/-! PROOFS. The checks an instruction makes before its operand (60_exceptions R383 to R385, R393; 48 R340), said once for all 133 of them
(`exec_stops_at_check`), and which conditions of a check raise what. -/

namespace Sys2Proof.Machine

/-! ### An instruction stops where the checks of its frame do -/

/-- The checks of a frame, in the order of 60_exceptions R393; the system instructions state their own (49). -/
def Frame.check (fr : Frame) (s : State) : Except Stop Unit :=
  match fr with
  | .mmx since => mmxCheck since s
  | .xmm => xmmCheck s
  | .xmmToMmx => xmmMmxCheck s
  | .state => fxCheck s
  | .hint => genCheck .three s
  | .system => .ok ()

/-- The checks of the frame are the first thing an instruction does; DIVPS and DIVSS run it before they use their draw. -/
theorem exec_stops_at_check {i : Instr} {s : State} {f : Fault} (h : (frameOf i).check s = .error (.fault f)) : exec i s = .fault f := by
  cases i with
  | wrmsr | rdtsc | rdmsr | cpuid => cases h
  | divps | divss => exact congrArg Effect.outcome (stops_first (stops_first h))
  | _ => exact congrArg Effect.outcome (stops_first h)

/-! ### Conditions in order -/

section
variable {s : State} {c : Bool} {e : Exception} {α : Type} {rest : Unit → Except Stop α}

/-- The first condition of a check that holds raises its exception. -/
theorem raiseIf_raises (h : c = true) : (raiseIf c e s >>= rest) = raise e s := by
  rw [h, raiseIf_true]
  cases e <;> rfl

/-- A condition that does not hold leaves the check to the ones after it. -/
theorem raiseIf_passes (h : c = false) : (raiseIf c e s >>= rest) = rest () := by
  rw [h, raiseIf_false, ok_bind]

end

section
variable {since : Since} {s : State}

/-- `MmxCheck` condition by condition (60_exceptions R383). -/
theorem mmxCheck_ud (h : present since s.plat.gen = false ∨ s.em = true) : mmxCheck since s = .error (.fault (.ud s)) := by
  rw [mmxCheck]
  cases hg : present since s.plat.gen with
  | false => exact raiseIf_raises rfl
  | true => exact (raiseIf_passes rfl).trans (raiseIf_raises (h.resolve_left (by simp [hg])))

theorem mmxCheck_nm (hg : present since s.plat.gen = true) (he : s.em = false) (ht : s.ts = true) :
    mmxCheck since s = .error (.fault (.nm s)) := by
  rw [mmxCheck, raiseIf_passes (by simp [hg]), raiseIf_passes he]
  exact raiseIf_raises ht

theorem mmxCheck_mf (hg : present since s.plat.gen = true) (he : s.em = false) (ht : s.ts = false) (hp : s.x87Pending = true) :
    mmxCheck since s = .error (.fault (.mf s)) := by
  rw [mmxCheck, raiseIf_passes (by simp [hg]), raiseIf_passes he, raiseIf_passes ht, hp]
  rfl

/-- `XmmCheck` condition by condition (60_exceptions R384). -/
theorem xmmCheck_ud (h : s.plat.gen ≠ .pentiumIII ∨ s.em = true ∨ s.osfxsr = false) : xmmCheck s = .error (.fault (.ud s)) := by
  rw [xmmCheck]
  by_cases hg : s.plat.gen = .pentiumIII
  · rw [raiseIf_passes (by simp [present, hg])]
    cases he : s.em with
    | true => exact raiseIf_raises rfl
    | false =>
      have hx : s.osfxsr = false := by simpa [hg, he] using h
      rw [raiseIf_passes rfl, hx]
      exact raiseIf_raises rfl
  · exact raiseIf_raises (by simp [present, hg])

theorem xmmCheck_nm (hg : s.plat.gen = .pentiumIII) (he : s.em = false) (hx : s.osfxsr = true) (ht : s.ts = true) :
    xmmCheck s = .error (.fault (.nm s)) := by
  rw [xmmCheck, raiseIf_passes (by simp [present, hg]), raiseIf_passes he, raiseIf_passes (by simp [hx]), ht]
  rfl

/-- The #MF test of the three conversions comes after `XmmCheck` (60_exceptions R384; log 30). -/
theorem xmmMmxCheck_mf (hc : xmmReady s = true) (hp : s.x87Pending = true) : xmmMmxCheck s = .error (.fault (.mf s)) := by
  rw [xmmMmxCheck, (xmmCheck_ok (u := ())).mpr hc, ok_bind, hp]
  rfl

/-- The checks of FXSAVE and FXRSTOR condition by condition (48 R340). -/
theorem fxCheck_ud (h : s.plat.fxsr = false ∨ s.em = true) : fxCheck s = .error (.fault (.ud s)) := by
  rw [fxCheck]
  cases hx : s.plat.fxsr with
  | false => exact raiseIf_raises rfl
  | true => exact (raiseIf_passes rfl).trans (raiseIf_raises (h.resolve_left (by simp [hx])))

theorem fxCheck_nm (hx : s.plat.fxsr = true) (he : s.em = false) (ht : s.ts = true) : fxCheck s = .error (.fault (.nm s)) := by
  rw [fxCheck, raiseIf_passes (by simp [hx]), raiseIf_passes he, ht]
  rfl

/-- The one check of a hint (log 31). -/
theorem genCheck_ud (h : s.plat.gen ≠ .pentiumIII) : genCheck .three s = .error (.fault (.ud s)) := by
  rw [genCheck, show present .three s.plat.gen = false by simp [present, h]]
  rfl

end

/-! ### The statements -/

/-- Settles O17: the MMX frame runs `MmxCheck` first (`exec_stops_at_check`). -/
theorem mmxChecksInOrder : Obligations.MmxChecksInOrder := by
  intro i since s hi
  have stops {f : Fault} (h : mmxCheck since s = .error (.fault f)) : exec i s = .fault f := exec_stops_at_check (by rw [hi]; exact h)
  exact ⟨fun hg => stops (mmxCheck_ud (.inl hg)), fun he => stops (mmxCheck_ud (.inr he)),
    fun hg he ht => stops (mmxCheck_nm hg he ht), fun hg he ht hp => stops (mmxCheck_mf hg he ht hp)⟩

/-- A fault of `XmmCheck` is that of both frames which begin with it. -/
theorem exec_stops_at_xmmCheck {i : Instr} {s : State} {f : Fault} (hi : frameOf i = .xmm ∨ frameOf i = .xmmToMmx)
    (h : xmmCheck s = .error (.fault f)) : exec i s = .fault f := by
  refine exec_stops_at_check ?_
  obtain hi | hi := hi
  · rw [hi]; exact h
  · rw [hi]; exact stops_first h

/-- Settles O18: each frame runs its own checks first (`exec_stops_at_check`). -/
theorem xmmStateAndHintChecks : Obligations.XmmStateAndHintChecks := by
  refine ⟨fun i s hi => ?xmm, fun i s => ⟨fun hi => ?state, fun hi hg => ?hint⟩⟩
  case xmm =>
    have stops {f : Fault} : xmmCheck s = .error (.fault f) → exec i s = .fault f := exec_stops_at_xmmCheck hi
    exact ⟨fun hg => stops (xmmCheck_ud (.inl hg)), fun he => stops (xmmCheck_ud (.inr (.inl he))),
      fun hx => stops (xmmCheck_ud (.inr (.inr hx))), fun hg he hx ht => stops (xmmCheck_nm hg he hx ht),
      fun hi hc hp => exec_stops_at_check (by rw [hi]; exact xmmMmxCheck_mf hc hp)⟩
  case state =>
    have stops {f : Fault} (h : fxCheck s = .error (.fault f)) : exec i s = .fault f := exec_stops_at_check (by rw [hi]; exact h)
    exact ⟨fun hx => stops (fxCheck_ud (.inl hx)), fun he => stops (fxCheck_ud (.inr he)), fun hx he ht => stops (fxCheck_nm hx he ht)⟩
  case hint => exact exec_stops_at_check (by rw [hi]; exact genCheck_ud hg)

end Sys2Proof.Machine
end

section
/-! PROOFS. Faults are precise (60_exceptions R396): a part of an instruction that stops leaves the state it was given, but for deciding
the floating-point exceptions, which records flags of which one is unmasked (R390); said once for each shared operation, and from it for
all 133 instructions (`exec_fault`) and for a step. -/

namespace Sys2Proof.Machine

/-- The fault of an unmasked condition: some flag recorded is unmasked, and it is #XM, or #UD where CR4.OSXMMEXCPT = 0 (60_exceptions
R390). -/
def ReportsUnmasked (s : State) (f : Fault) : Prop :=
  ∃ g : FpFlags, g &&& ~~~(mxMasks s.mxcsr) ≠ 0#6 ∧ if s.osxmmexcpt then f = .xm (s.orMxcsr g) else f = .ud (s.orMxcsr g)

/-- A fault that leaves the state before it, or, of what can signal, one that reports an unmasked condition. -/
def Fault.Precise (signals : Prop) (s : State) (f : Fault) : Prop := f.state = s ∨ (signals ∧ ReportsUnmasked s f)

/-- What stops does so by a precise fault, or by a refusal. -/
def StopsPrecisely {α : Type} (signals : Prop) (s : State) (e : Except Stop α) : Prop :=
  ∀ f, e = .error (.fault f) → f.Precise signals s

section
variable {α : Type} {signals : Prop} {s : State}

/-- Every stop leaves the state before it. -/
theorem StopsPrecisely.of_at {e : Except Stop α} (h : ∀ {p}, e = .error p → p.At s) : StopsPrecisely signals s e :=
  fun _ hf => .inl (h hf)

theorem StopsPrecisely.ok (a : α) : StopsPrecisely signals s (.ok a) := nofun

theorem StopsPrecisely.refuse (r : Refusal) : StopsPrecisely signals s (Machine.refuse r : Except Stop α) := nofun

/-- Of a sequence, both parts stop precisely. -/
theorem StopsPrecisely.bind {β : Type} {x : Except Stop β} {f : β → Except Stop α} (hx : StopsPrecisely signals s x)
    (hf : ∀ a, StopsPrecisely signals s (f a)) : StopsPrecisely signals s (x >>= f) := fun g hg => by
  obtain h | ⟨a, -, h⟩ := bind_error.mp hg
  · exact hx g (by rw [h])
  · exact hf a g h

theorem Fault.Precise.of_fault {e : Effect} {f : Fault} (h : e.outcome = .fault f) (he : StopsPrecisely signals s e) :
    f.Precise signals s := he f (outcome_eq_fault.mp h)

/-! ### The checks and the accesses -/

theorem raiseIf_precise {c : Bool} {e : Exception} : StopsPrecisely signals s (raiseIf c e s) := .of_at raiseIf_error

theorem mmxCheck_precise {since : Since} : StopsPrecisely signals s (mmxCheck since s) := .of_at mmxCheck_error

theorem xmmCheck_precise : StopsPrecisely signals s (xmmCheck s) := .of_at xmmCheck_error

theorem xmmMmxCheck_precise : StopsPrecisely signals s (xmmMmxCheck s) := .of_at xmmMmxCheck_error

theorem fxCheck_precise : StopsPrecisely signals s (fxCheck s) :=
  .bind raiseIf_precise fun _ => .bind raiseIf_precise fun _ => raiseIf_precise

theorem msrCheck_precise : StopsPrecisely signals s (msrCheck s) := .bind raiseIf_precise fun _ => raiseIf_precise

theorem memCheck_precise {acc : Access} {al : Bool} {a : Addr} {n : Nat} : StopsPrecisely signals s (memCheck acc al s a n) :=
  .of_at memCheck_error

theorem rmRead_precise {w n : Nat} {al : Bool} {f : Reg → BitVec w} {rm : RM} : StopsPrecisely signals s (rmRead w n al f s rm) :=
  .of_at rmRead_error

theorem rmWrite_precise {w n : Nat} {al : Bool} {f : State → Reg → BitVec w → State} {rm : RM} {v : BitVec w} :
    StopsPrecisely signals s (rmWrite n al f s rm v) := .of_at rmWrite_error

/-- CMPPS and CMPSS refuse a reserved predicate (47 R289), which is no fault. -/
theorem withPredicate_precise {w : Nat} {imm : Byte} {read : State → RM → Except Stop (BitVec w)} {rm : RM}
    (hr : StopsPrecisely signals s (read s rm)) : StopsPrecisely signals s (withPredicate imm read s rm) :=
  .bind hr fun v => by
    split
    · exact .refuse _
    · exact .ok v

/-! ### Deciding the floating-point exceptions -/

theorem simdFault_fault {u : State} {f : Fault} (h : (simdFault u : Except Stop α) = .error (.fault f)) :
    if u.osxmmexcpt then f = .xm u else f = .ud u := by
  rw [simdFault] at h
  split at h
  · next hx => cases h; rw [if_pos hx]
  · next hx => cases h; rw [if_neg hx]

/-- An unmasked flag stays one when others are recorded with it. -/
theorem unmasked_or_right {mx : Dword} {f g : FpFlags} (h : unmasked mx g = true) : (f ||| g) &&& ~~~(mxMasks mx) ≠ 0#6 := by
  rw [BitVec.and_comm, BitVec.and_or_distrib_left]
  intro hz
  obtain ⟨-, hg⟩ := BitVec.or_eq_zero_iff.mp hz
  rw [unmasked, BitVec.and_comm, hg] at h
  cases h

theorem simdDecide_precise {pre post : FpFlags} (hs : signals) : StopsPrecisely signals s (simdDecide s pre post) := fun f h => by
  rw [simdDecide, orMxcsr_orMxcsr] at h
  split at h
  · next hu => exact .inr ⟨hs, pre, bne_iff_ne.mp hu, simdFault_fault h⟩
  · split at h
    · next hu => exact .inr ⟨hs, pre ||| post, unmasked_or_right hu, simdFault_fault h⟩
    · cases h

theorem finish_precise {c : Signalled α} {write : State → α → State} (hs : signals) : StopsPrecisely signals s (finish s c write) :=
  .bind (simdDecide_precise hs) fun _ => .ok _

end

/-! ### Frame by frame -/

section
variable {signals : Prop} {s : State} {r q : Reg} {rm : RM} {w n : Nat} {since : Since} {al : Bool}
  {read : State → RM → Except Stop (BitVec w)}

theorem mmxBinary_precise {f : Qword → BitVec w → Qword} (hr : StopsPrecisely signals s (read s rm)) :
    StopsPrecisely signals s (mmxBinary since read f s r rm) := .bind mmxCheck_precise fun _ => .bind hr fun _ => .ok _

theorem mmxUnary_precise {f : Qword → Qword} : StopsPrecisely signals s (mmxUnary since f s r) := .bind mmxCheck_precise fun _ => .ok _

theorem mmxToGpr_precise {f : Qword → Dword} : StopsPrecisely signals s (mmxToGpr since f s r q) :=
  .bind mmxCheck_precise fun _ => .ok _

theorem mmxStore_precise {f : State → Reg → BitVec w → State} {v : BitVec w} : StopsPrecisely signals s (mmxStore since n f s rm v) :=
  .bind mmxCheck_precise fun _ => .bind rmWrite_precise fun _ => .ok _

theorem xmmBinary_precise {f : Xword → BitVec w → Xword} (hr : StopsPrecisely signals s (read s rm)) :
    StopsPrecisely signals s (xmmBinary read f s r rm) := .bind xmmCheck_precise fun _ => .bind hr fun _ => .ok _

theorem xmmStore_precise {f : State → Reg → BitVec w → State} {v : BitVec w} : StopsPrecisely signals s (xmmStore n al f s rm v) :=
  .bind xmmCheck_precise fun _ => rmWrite_precise

theorem xmmNumeric_precise {compute : Xword → BitVec w → Signalled Xword} (hs : signals) (hr : StopsPrecisely signals s (read s rm)) :
    StopsPrecisely signals s (xmmNumeric read compute s r rm) := .bind xmmCheck_precise fun _ => .bind hr fun _ => finish_precise hs

theorem xmmCompare_precise {flags : Dword → Dword → FpFlags} (hs : signals) : StopsPrecisely signals s (xmmCompare flags s r rm) :=
  .bind xmmCheck_precise fun _ => .bind rmRead_precise fun _ => finish_precise hs

theorem xmmToGpr_precise {f : Dword → Signalled Dword} (hs : signals) : StopsPrecisely signals s (xmmToGpr f s r rm) :=
  .bind xmmCheck_precise fun _ => .bind rmRead_precise fun _ => finish_precise hs

theorem xmmToMmx_precise {f : Dword → Signalled Dword} (hs : signals) : StopsPrecisely signals s (xmmToMmx f s r rm) :=
  .bind xmmMmxCheck_precise fun _ => .bind rmRead_precise fun _ => finish_precise hs

theorem hint_precise : StopsPrecisely signals s (hint s) := .bind raiseIf_precise fun _ => .ok _

theorem rdmsr_precise {f : Fault} (h : execRdmsr s = .fault f) : f.Precise signals s := by
  refine .of_fault h (.bind msrCheck_precise fun _ => ?_)
  split
  · exact .ok _
  · exact .ok _

theorem wrmsr_precise {f : Fault} (h : execWrmsr s = .fault f) : f.Precise signals s := by
  refine .of_fault h (.bind msrCheck_precise fun _ => ?_)
  split
  · exact .ok _
  · exact .refuse _

end

/-! ### Every instruction, and a step -/

/-- Every fault of an instruction is precise, by the shape its meaning has; only the 24 numeric ones decide floating-point exceptions. -/
theorem exec_fault {i : Instr} {s : State} {f : Fault} (h : exec i s = .fault f) : f.Precise (numeric i) s := by
  cases i with
  | punpcklbw | punpcklwd | punpckldq | packsswb | pcmpgtb | pcmpgtw | pcmpgtd | packuswb | punpckhbw | punpckhwd | punpckhdq
  | packssdw | movdLoad | movqLoad | pcmpeqb | pcmpeqw | pcmpeqd | psrlw | psrld | psrlq | pmullw | psubusb | psubusw | pand
  | paddusb | paddusw | pandn | psraw | psrad | pmulhw | psubsb | psubsw | por | paddsb | paddsw | pxor | psllw | pslld | psllq
  | pmaddwd | psubb | psubw | psubd | paddb | paddw | paddd | pshufw | pinsrw | pminub | pmaxub | pavgb | pavgw | pmulhuw
  | pminsw | pmaxsw | psadbw => exact .of_fault h (mmxBinary_precise rmRead_precise)
  | psrlwImm | psrawImm | psllwImm | psrldImm | psradImm | pslldImm | psrlqImm | psllqImm => exact .of_fault h mmxUnary_precise
  | pextrw | pmovmskb => exact .of_fault h mmxToGpr_precise
  | movdStore | movqStore | movntq => exact .of_fault h mmxStore_precise
  | maskmovq => exact .of_fault h (.bind mmxCheck_precise fun _ => .bind (.of_at checkBytes_error) fun _ => .ok _)
  | emms => exact .of_fault h (.bind mmxCheck_precise fun _ => .ok _)
  | movupsLoad | movssLoad | movlpsLoad | movhlps | unpcklps | unpckhps | movhpsLoad | movlhps | movapsLoad | rsqrtps | rsqrtss
  | rcpps | rcpss | andps | andnps | orps | xorps | shufps => exact .of_fault h (xmmBinary_precise rmRead_precise)
  | movupsStore | movssStore | movlpsStore | movhpsStore | movapsStore | movntps | stmxcsr => exact .of_fault h xmmStore_precise
  | cvtsi2ss | sqrtps | sqrtss | addps | addss | mulps | mulss | subps | subss | minps | minss | maxps | maxss =>
    exact .of_fault h (xmmNumeric_precise rfl rmRead_precise)
  | cmpps | cmpss => exact .of_fault h (xmmNumeric_precise rfl (withPredicate_precise rmRead_precise))
  | divps | divss => exact .of_fault h (.bind (xmmNumeric_precise rfl rmRead_precise) fun _ => .ok _)
  | comiss | ucomiss => exact .of_fault h (xmmCompare_precise rfl)
  | cvttss2si | cvtss2si => exact .of_fault h (xmmToGpr_precise rfl)
  | cvttps2pi | cvtps2pi => exact .of_fault h (xmmToMmx_precise rfl)
  | cvtpi2ps =>
    exact .of_fault h (.bind xmmMmxCheck_precise fun _ => .bind rmRead_precise fun _ => finish_precise rfl)
  | movmskps => exact .of_fault h (.bind xmmCheck_precise fun _ => .ok _)
  | prefetchnta | prefetcht0 | prefetcht1 | prefetcht2 | sfence => exact .of_fault h hint_precise
  | fxsave => exact .of_fault h (.bind fxCheck_precise fun _ => .bind memCheck_precise fun _ => .ok _)
  | fxrstor =>
    exact .of_fault h (.bind fxCheck_precise fun _ => .bind memCheck_precise fun _ => .bind raiseIf_precise fun _ => .ok _)
  | ldmxcsr =>
    exact .of_fault h (.bind xmmCheck_precise fun _ => .bind (.of_at load_error) fun _ => .bind raiseIf_precise fun _ => .ok _)
  | wrmsr => exact wrmsr_precise h
  | rdtsc => exact .of_fault h (.bind raiseIf_precise fun _ => .ok _)
  | rdmsr => exact rdmsr_precise h
  | cpuid => cases h

/-- What has no decoding is refused, and never faults (30_encoding R106, R120). -/
theorem decodeStop_ne_fault {e : DecodeError} {s : State} {f : Fault} : Effect.outcome (decodeStop e s) ≠ .fault f := by
  cases e with
  | outOfBytes =>
    simp only [decodeStop, fetchOverrun]
    split
    · nofun
    · nofun
  | notInstruction => nofun
  | reservedPrefix => nofun

theorem lengthCheck_error {len : Nat} {s : State} {p : Stop} (h : lengthCheck len s = .error p) : p.At s := by
  rw [lengthCheck] at h
  split at h
  · exact raise_error h
  · cases h

theorem advanceOutcome_fault {len : Nat} {o : Host.Outcome State Fault Refusal} {f : Fault} (h : advanceOutcome len o = .fault f) :
    o = .fault f := by
  cases o with
  | fault g => exact h
  | next u => cases h
  | refused r => cases h

/-- A step that faults leaves the state before it, or the fault is that of the instruction it decoded. -/
theorem step_fault {s : State} {f : Fault} (h : step s = .fault f) :
    f.state = s ∨ ∃ i len, decode s.plat.codeSize s.fetchBytes = .ok (.instr i, len) ∧ exec i s = .fault f := by
  unfold step at h
  split at h
  · exact absurd h decodeStop_ne_fault
  · next d len hd =>
    split at h
    · next stop hl =>
      cases outcome_eq_fault.mp h
      exact .inl (lengthCheck_error hl)
    · replace h := advanceOutcome_fault h
      cases d with
      | instr i => exact .inr ⟨i, len, hd, h⟩
      | reservedHint => exact .inl ((Fault.Precise.of_fault (signals := False) h hint_precise).resolve_right And.left)
      | invalidForm => cases h; exact .inl rfl
      | locked => cases h; exact .inl rfl

/-- Settles O14: every instruction's faults are precise (`exec_fault`), and a step adds none that changes the state (`step_fault`). -/
theorem faultsArePrecise : Obligations.FaultsArePrecise := by
  refine ⟨fun i s f h => exec_fault h, fun s f h => ?_⟩
  obtain hs | ⟨i, len, hd, hi⟩ := step_fault h
  · exact .inl hs
  · obtain hs | ⟨hn, hg⟩ := exec_fault hi
    · exact .inl hs
    · exact .inr ⟨⟨i, len, hd, hn⟩, hg⟩

end Sys2Proof.Machine
end

section
/-! PROOFS. MASKMOVQ (48 R350): its selected bytes are at different addresses, so that each is stored and nothing else is. -/

namespace Sys2Proof.Machine

/-- The eight bytes of the operand are at eight addresses, also where the addresses wrap at 2^16 (48 R350). -/
theorem State.maskByteAddr_injective {s : State} {ovr : Option Seg} {size : AddrSize} {i j : Nat} (hi : i < 8) (hj : j < 8)
    (h : s.maskByteAddr ovr size i = s.maskByteAddr ovr size j) : i = j := by
  replace h := congrArg BitVec.toNat h
  cases size with
  | a32 =>
    rw [State.maskByteAddr32_toNat, State.maskByteAddr32_toNat] at h
    omega
  | a16 =>
    rw [State.maskByteAddr16_toNat, State.maskByteAddr16_toNat] at h
    omega

/-- Single bytes written at different addresses read back. -/
theorem Memory.read_writeEach_of_mem {m : Memory} (hm : m.wf) {ws : List (Addr × Byte)} (hd : (ws.map (·.1)).Nodup) {w : Addr × Byte}
    (hw : w ∈ ws) : (m.writeEach ws).read w.1.toNat = w.2 := by
  induction ws generalizing m with
  | nil => cases hw
  | cons v ws ih =>
    rw [List.map_cons, List.nodup_cons] at hd
    obtain ⟨hv, hrest⟩ := hd
    obtain rfl | hw := List.mem_cons.mp hw
    · rw [Memory.writeEach, Memory.read_writeEach_ne _ hv, Memory.read_write_self hm]
    · exact ih (Memory.write_wf hm v.1.isLt v.2) hrest hw

theorem maskByteAddr_selected_nodup (s : State) (ovr : Option Seg) (size : AddrSize) (v : Qword) :
    ((selectedBytes v).map (s.maskByteAddr ovr size)).Nodup :=
  List.Nodup.map_on
    (fun _ hi _ hj h => State.maskByteAddr_injective (mem_selectedBytes.mp hi).1 (mem_selectedBytes.mp hj).1 h)
    ((selectedBytes_sorted v).imp Nat.ne_of_lt)

/-- What MASKMOVQ stores: each selected byte with its address. -/
def maskedBytes (s : State) (r q : Reg) (ovr : Option Seg) (size : AddrSize) : List (Addr × Byte) :=
  (selectedBytes (s.mm q)).map fun i => (s.maskByteAddr ovr size i, elem 8 (s.mm r) i)

theorem maskedBytes_addresses (s : State) (r q : Reg) (ovr : Option Seg) (size : AddrSize) :
    (maskedBytes s r q ovr size).map (·.1) = (selectedBytes (s.mm q)).map (s.maskByteAddr ovr size) := List.map_map

/-- Where every selected byte may be stored, MASKMOVQ completes. -/
theorem exec_maskmovq {s : State} {r q : Reg} {ovr : Option Seg} {size : AddrSize} (hc : mmxReady .three s = true)
    (ho : ∀ i < 8, (elem 8 (s.mm q) i).getLsbD 7 = true → byteOpen s.plat .write (s.maskByteAddr ovr size i) = true) :
    exec (.maskmovq r q ovr size) s = .next { s with mem := s.mem.writeEach (maskedBytes s r q ovr size) }.mmxEnter := by
  have hopen : ∀ i ∈ selectedBytes (s.mm q), byteOpen s.plat .write (s.maskByteAddr ovr size i) = true := fun i hi =>
    ho i (mem_selectedBytes.mp hi).1 (mem_selectedBytes.mp hi).2
  exact outcome_next.mpr (bind_ok.mpr ⟨(), mmxCheck_ok.mpr hc,
    bind_ok.mpr ⟨(), checkBytes_ok.mpr (List.all_eq_true.mpr (List.forall_mem_map.mpr hopen)), rfl⟩⟩)

/-- Settles O35: the selected bytes are stored one by one at different addresses (`Memory.read_writeEach_of_mem`). -/
theorem maskmovqStoresSelectedBytes : Obligations.MaskmovqStoresSelectedBytes := by
  intro s r q ovr size hc hm ho
  have haddr := maskedBytes_addresses s r q ovr size
  refine ⟨_, exec_maskmovq hc ho, fun i hi hsel => ?stored, fun a ha => ?kept, SameGpr.refl s, SameFpr.refl s,
    mmxEntered_mmxEnter (SameX87.refl s), SameXmm.refl s, rfl, rfl, SameSystem.refl s, SameDraws.refl s⟩
  case stored =>
    exact Memory.read_writeEach_of_mem hm (haddr ▸ maskByteAddr_selected_nodup s ovr size _)
      (w := (s.maskByteAddr ovr size i, elem 8 (s.mm r) i)) (List.mem_map_of_mem (mem_selectedBytes.mpr ⟨hi, hsel⟩))
  case kept => exact Memory.read_writeEach_ne _ (by rwa [haddr])

end Sys2Proof.Machine
end

section
/-! PROOFS. XMM logic and shuffles: which elements SHUFPS and the unpacks take (48 R345 to R347), and the instructions of 48, sections 2
and 4. -/

namespace Sys2Proof.Machine

/-! ### The elements chosen (48 R345 to R347) -/

/-- The two low elements come from the destination, the two high ones from the source, by the fields of the immediate. -/
theorem elem_shuffleElems (imm : Byte) (d v : Xword) {k : Nat} (h : k < 4) :
    elem 32 (shuffleElems imm d v) k = elem 32 (if k < 2 then d else v) (imm.toNat / 4 ^ k % 4) := by
  rw [shuffleElems, elem_ofElems _ h, toNat_immField, apply_ite (elem 32 · _)]

/-- The destination's elements are at the even places, the source's at the odd ones. -/
theorem elem_interleaveElems {base : Nat} {d v : Xword} {i : Nat} (h : i < 2) :
    elem 32 (interleaveElems base d v) (2 * i) = elem 32 d (base + i) ∧
      elem 32 (interleaveElems base d v) (2 * i + 1) = elem 32 v (base + i) := by
  rw [interleaveElems, elem_ofElems _ (by omega), elem_ofElems _ (by omega)]
  exact ite_alternating (fun j => elem 32 d (base + j)) (fun j => elem 32 v (base + j)) i

theorem elems_interleaveElems (base : Nat) (d v : Xword) :
    elem 32 (interleaveElems base d v) 0 = elem 32 d base ∧ elem 32 (interleaveElems base d v) 1 = elem 32 v base ∧
      elem 32 (interleaveElems base d v) 2 = elem 32 d (base + 1) ∧ elem 32 (interleaveElems base d v) 3 = elem 32 v (base + 1) := by
  obtain ⟨h0, h1⟩ := elem_interleaveElems (base := base) (d := d) (v := v) (i := 0) (by decide)
  obtain ⟨h2, h3⟩ := elem_interleaveElems (base := base) (d := d) (v := v) (i := 1) (by decide)
  exact ⟨h0, h1, h2, h3⟩

/-! ### The statement -/

/-- Settles O38: the seven are the XMM binary frame over whole operands or over chosen elements. -/
theorem xmmLogicalAndShuffleResults : Obligations.XmmLogicalAndShuffleResults := by
  refine ⟨fun s r rm hc hr => ⟨?andps, ?andnps, ?orps, ?xorps⟩, fun s r rm imm hc hr => ⟨?shufps, ?unpckhps, ?unpcklps⟩⟩
  case andps => exact xmmCompletes_binary rfl hc (xmm128_ok hr) fun _ _ => BitVec.getLsbD_and
  case andnps => exact xmmCompletes_binary rfl hc (xmm128_ok hr) fun _ hk => getLsbD_not_and _ _ hk
  case orps => exact xmmCompletes_binary rfl hc (xmm128_ok hr) fun _ _ => BitVec.getLsbD_or
  case xorps => exact xmmCompletes_binary rfl hc (xmm128_ok hr) fun _ _ => BitVec.getLsbD_xor
  case shufps =>
    have hk {k : Nat} := elem_shuffleElems imm (s.xm r) (srcXm s rm) (k := k)
    refine xmmCompletes_binary rfl hc (xmm128_ok hr) ⟨?_, hk (by decide), hk (by decide), hk (by decide)⟩
    rw [hk (by decide), pow_zero, Nat.div_one, if_pos (by decide)]
  case unpckhps => exact xmmCompletes_binary rfl hc (xmm128_ok hr) (elems_interleaveElems 2 _ _)
  case unpcklps => exact xmmCompletes_binary rfl hc (xmm128_ok hr) (elems_interleaveElems 0 _ _)

end Sys2Proof.Machine
end

section
/-! PROOFS. The conversions between integers and single-precision numbers (48 R321 to R327): what the numeric frame writes to an MMX, a
general and an XMM register when it completes. -/

namespace Sys2Proof.Machine

/-! ### What completes, by its destination -/

/-- Flags recorded and an MMX register written, with the MMX transition: nothing else changes. -/
theorem writesMmFlags_setMm (s : State) (f : FpFlags) (r : Reg) (v : Qword) : WritesMmFlags s ((s.orMxcsr f).setMm r v).mmxEnter r :=
  ⟨fun _ hq => State.setMm_fp_ne _ v hq,
    by rw [State.mmxEnter_fp, State.setMm_fp_self]; exact mmxImage_high v, mmxEntered_mmxEnter (SameX87.refl s),
    SameGpr.refl s, SameXmm.refl s, rfl, SameMem.refl s, SameSystem.refl s, SameDraws.refl s⟩

/-- Flags recorded and a general register written: nothing else changes. -/
theorem writesGprFlags_setX (s : State) (f : FpFlags) (r : Reg) (v : Dword) : WritesGprFlags s ((s.orMxcsr f).setX r v) r :=
  ⟨fun _ hq => State.setX_x_ne _ v hq, SameFpr.refl s, SameX87.refl s, SameXmm.refl s, rfl, SameMem.refl s, SameSystem.refl s,
    SameDraws.refl s⟩

/-- Element k of a result of two elements (48 R322 to R324). -/
theorem elem_pair (f : Nat → Signalled Dword) {k : Nat} (h : k < 2) : elem 32 (pair f).res k = (f k).res :=
  elem_ofDwords (fun k => (f k).res) h

/-- The same written to the low half of an XMM register (48 R322). -/
theorem elem_lowHalf_pair (d : Xword) (f : Nat → Signalled Dword) {k : Nat} (h : k < 2) :
    elem 32 (lowHalf d (pair f).res) k = (f k).res :=
  (extract_low _ _ (32 * k) 32 (by omega)).trans (elem_pair f h)

/-- The flags of two elements, in the order of the elements and then before and after the computation. -/
theorem pair_flags (f : Nat → Signalled Dword) :
    (pair f).pre ||| (pair f).post = (f 0).pre ||| (f 1).pre ||| (f 0).post ||| (f 1).post := by
  rw [pair, BitVec.or_assoc ((f 0).pre ||| (f 1).pre)]

/-- A conversion of integers signals nothing before it rounds (48 R321). -/
theorem pair_intToFp_flags (mx : Dword) (v : Qword) :
    let e (k : Nat) := intToFp mx (elem 32 v k)
    (pair e).pre ||| (pair e).post = (e 0).post ||| (e 1).post := by
  intro e
  rw [pair_flags, show (e 0).pre = 0#6 from intToFp_pre mx _, show (e 1).pre = 0#6 from intToFp_pre mx _, BitVec.or_zero,
    BitVec.zero_or]

section
variable {i : Instr} {s : State} {r : Reg} {rm : RM} {f : Dword → Signalled Dword}

theorem xmmToMmx_completes (e : exec i s = (xmmToMmx f s r rm).outcome) (hc : xmmReady s = true) (hp : s.x87Pending = false)
    (hr : reachable .read 8 false s rm = true) :
    let e (k : Nat) := f (elem 32 (srcXm64 s rm) k)
    let flags := (e 0).pre ||| (e 1).pre ||| (e 0).post ||| (e 1).post
    noneUnmasked s flags →
      ∃ t, exec i s = .next t ∧ elem 32 (t.mm r) 0 = (e 0).res ∧ elem 32 (t.mm r) 1 = (e 1).res ∧
        t.mxcsr = s.mxcsr ||| flags.setWidth 32 ∧ WritesMmFlags s t r := by
  intro e' flags hu
  have hflags : (pair e').pre ||| (pair e').post = flags := pair_flags e'
  have hdone := finish_completes (c := pair e') (write := fun t v => (t.setMm r v).mmxEnter) (hflags.symm ▸ hu)
  rw [hflags] at hdone
  refine ⟨_, e.trans (congrArg Effect.outcome ((xmmToMmx_run hc hp hr).trans hdone)), ?_, ?_, rfl, writesMmFlags_setMm s flags r _⟩
  · rw [State.mmxEnter_mm, State.setMm_mm_self, elem_pair _ (by decide)]
  · rw [State.mmxEnter_mm, State.setMm_mm_self, elem_pair _ (by decide)]

theorem xmmToGpr_completes (e : exec i s = (xmmToGpr f s r rm).outcome) (hc : xmmReady s = true)
    (hr : reachable .read 4 false s rm = true) :
    let e := f (srcXm32 s rm)
    noneUnmasked s (e.pre ||| e.post) →
      ∃ t, exec i s = .next t ∧ t.x r = e.res ∧ t.mxcsr = s.mxcsr ||| (e.pre ||| e.post).setWidth 32 ∧ WritesGprFlags s t r :=
  fun hu => ⟨_, e.trans (congrArg Effect.outcome ((xmmToGpr_run hc hr).trans (finish_completes hu))), State.setX_x_self _ r _, rfl,
    writesGprFlags_setX s _ r _⟩

/-- CVTPI2PS writes the low half of an XMM register and makes the MMX transition, also where its source is memory (48 R322). -/
theorem exec_cvtpi2ps (hc : xmmReady s = true) (hp : s.x87Pending = false) (hr : reachable .read 8 false s rm = true) :
    let e (k : Nat) := intToFp s.mxcsr (elem 32 (srcMm s rm) k)
    let flags := (e 0).post ||| (e 1).post
    noneUnmasked s flags →
      exec (.cvtpi2ps r rm) s = .next ((s.orMxcsr flags).setXm r (lowHalf (s.xm r) (pair e).res)).mmxEnter := by
  intro e flags hu
  have hflags : (pair e).pre ||| (pair e).post = flags := pair_intToFp_flags _ _
  have hdone := finish_completes (c := pair e) (write := fun t v => (t.setXm r (lowHalf (t.xm r) v)).mmxEnter) (hflags.symm ▸ hu)
  rw [hflags] at hdone
  exact (execCvtpi2ps_run hc hp hr).trans (congrArg Effect.outcome hdone)

end

/-! ### The statement -/

/-- Settles O52: each of the six, its checks and its operand passed, is `finish` of what it computed, and nothing is unmasked. -/
theorem conversionResults : Obligations.ConversionResults := by
  refine ⟨fun s r rm hc => ⟨fun hp hr => ?cvtpi2ps, fun hr => ?cvtsi2ss⟩,
    fun s r rm hc => ⟨fun hp hr => ⟨?cvtps2pi, ?cvttps2pi⟩, fun hr => ⟨?cvtss2si, ?cvttss2si⟩⟩⟩
  case cvtpi2ps =>
    intro e flags hu
    refine ⟨_, exec_cvtpi2ps hc hp hr hu, ?_, ?_, ?_, rfl, mmxEntered_mmxEnter (SameX87.refl s),
      fun _ hq => State.setXm_xm_ne _ _ hq, SameFpr.refl s, SameGpr.refl s, rfl, SameMem.refl s, SameSystem.refl s, SameDraws.refl s⟩
    · rw [State.mmxEnter_xm, State.setXm_xm_self, elem_lowHalf_pair _ _ (by decide)]
    · rw [State.mmxEnter_xm, State.setXm_xm_self, elem_lowHalf_pair _ _ (by decide)]
    · rw [State.mmxEnter_xm, State.setXm_xm_self, lowHalf_high]
  case cvtsi2ss =>
    intro e hu
    have hflags : e.pre ||| e.post = e.post := by rw [show e.pre = 0#6 from intToFp_pre s.mxcsr _, BitVec.zero_or]
    exact numericCompletes_scalar (i := .cvtsi2ss r rm) (P := (· = e.res)) rfl hc (gp32_ok hr) hflags hu rfl
  case cvtps2pi => exact (xmmToMmx_completes (i := .cvtps2pi r rm) rfl hc hp hr :)
  case cvttps2pi => exact (xmmToMmx_completes (i := .cvttps2pi r rm) rfl hc hp hr :)
  case cvtss2si => exact (xmmToGpr_completes (i := .cvtss2si r rm) rfl hc hr :)
  case cvttss2si => exact (xmmToGpr_completes (i := .cvttss2si r rm) rfl hc hr :)

end Sys2Proof.Machine
end

section
/-! PROOFS. The system instructions: the time-stamp counter (49 R364), the checks of RDMSR and WRMSR (R367, R368), the registers that
RDTSC, RDMSR and CPUID write, and the feature bits of CPUID (R366). -/

namespace Sys2Proof.Machine

/-! ### The time-stamp counter (49 R364) -/

/-- The value read is above the last one, unless that is the last of all (log 15): a positive step that ends at 2^64 - 1 or before. -/
theorem lt_tscValue {last : Qword} (draw : Qword) (h : last ≠ BitVec.allOnes 64) : last.toNat < (tscValue last draw).toNat := by
  have hne : last.toNat ≠ 2 ^ 64 - 1 := fun e => h (BitVec.eq_of_toNat_eq (e.trans BitVec.toNat_allOnes.symm))
  have hlt := last.isLt
  have hstep : draw.toNat % (2 ^ 64 - 1 - last.toNat) < 2 ^ 64 - 1 - last.toNat := Nat.mod_lt _ (by omega)
  rw [tscValue, if_neg h, BitVec.toNat_ofNat, Nat.mod_eq_of_lt (by omega)]
  omega

/-! ### EDX:EAX -/

theorem halves_append (v : Qword) : v.extractLsb' 32 32 ++ v.setWidth 32 = v := by
  rw [setWidth_eq_low]
  exact (BitVec.extractLsb'_append_extractLsb'_eq_extractLsb' rfl).trans extract_all

/-- EDX:EAX written reads back (49 R362, R367). -/
theorem State.setEdxEax_edxEax (s : State) (v : Qword) : (s.setEdxEax v).x edx ++ (s.setEdxEax v).x eax = v := by
  rw [State.setEdxEax, State.setX_x_self, State.setX_x_ne _ _ (by decide), State.setX_x_self, halves_append]

theorem State.setEdxEax_x_ne (s : State) (v : Qword) {q : Reg} (h : ¬(q = eax ∨ q = edx)) : (s.setEdxEax v).x q = s.x q := by
  obtain ⟨ha, hd⟩ := not_or.mp h
  rw [State.setEdxEax, State.setX_x_ne _ _ hd, State.setX_x_ne _ _ ha]

/-- A read of the TSC into EDX:EAX (49 R362, R367): the value is above the last one, which it becomes; one draw is used. -/
theorem tscRead_edxEax (s : State) :
    let t := s.tscRead.setEdxEax s.nextTsc
    t.x edx ++ t.x eax = t.tscLast ∧ (s.tscLast ≠ BitVec.allOnes 64 → s.tscLast.toNat < t.tscLast.toNat) ∧
      WritesGprOnly s t (fun q => q = eax ∨ q = edx) ∧ t.draws = s.draws + 1 :=
  ⟨State.setEdxEax_edxEax _ _, lt_tscValue _, ⟨fun _ hq => State.setEdxEax_x_ne _ _ hq, SameFpr.refl s, SameX87.refl s, SameXmm.refl s,
    rfl, rfl, SameMem.refl s, SameSystem.refl s⟩, rfl⟩

/-! ### RDTSC (49 R362) -/

theorem exec_rdtsc_gp {s : State} (ht : s.tsd = true) (hc : s.cpl ≠ 0#2) : exec .rdtsc s = .fault (.gp s) :=
  congrArg Effect.outcome (raiseIf_raises (by simp [ht, hc]))

theorem exec_rdtsc {s : State} (h : s.tsd = false ∨ s.cpl = 0#2) : exec .rdtsc s = .next (s.tscRead.setEdxEax s.nextTsc) := by
  have hpass : (s.tsd && s.cpl != 0#2) = false := by obtain h | h := h <;> simp [h]
  exact congrArg Effect.outcome (raiseIf_passes hpass)

/-- Settles O58: a check, then a read of the TSC (`tscRead_edxEax`). -/
theorem rdtscReadsAGreaterValue : Obligations.RdtscReadsAGreaterValue :=
  fun s => ⟨exec_rdtsc_gp, fun h => ⟨_, exec_rdtsc h, tscRead_edxEax s⟩⟩

/-! ### RDMSR and WRMSR (49 R367, R368) -/

section
variable {s : State}

theorem msrCheck_gp (h : s.cpl ≠ 0#2 ∨ s.plat.msrExists (s.x ecx) = false) : msrCheck s = .error (.fault (.gp s)) := by
  rw [msrCheck]
  by_cases hc : s.cpl = 0#2
  · rw [raiseIf_passes (by simp [hc]), h.resolve_left (not_not.mpr hc)]
    rfl
  · exact raiseIf_raises (by simp [hc])

theorem msrCheck_passes (hc : s.cpl = 0#2) (he : s.plat.msrExists (s.x ecx) = true) : msrCheck s = .ok () := by
  rw [msrCheck, raiseIf_passes (by simp [hc]), he]
  rfl

/-- The number of the TSC names an MSR (00_scope R9). -/
theorem msrExists_tscNumber (p : Platform) : p.msrExists p.tscNumber = true := by simp [Platform.msrExists]

theorem exec_rdmsr_tsc (hc : s.cpl = 0#2) (hn : s.x ecx = s.plat.tscNumber) :
    exec .rdmsr s = .next (s.tscRead.setEdxEax s.nextTsc) := by
  change execRdmsr s = _
  rw [execRdmsr, msrCheck_passes hc (hn ▸ msrExists_tscNumber _), ok_bind, if_pos hn]
  rfl

theorem exec_wrmsr_tsc (hc : s.cpl = 0#2) (hn : s.x ecx = s.plat.tscNumber) :
    exec .wrmsr s = .next { s with tscLast := (s.x eax).setWidth 64 } := by
  change execWrmsr s = _
  rw [execWrmsr, msrCheck_passes hc (hn ▸ msrExists_tscNumber _), ok_bind, if_pos hn]
  rfl

theorem exec_rdmsr_other (hc : s.cpl = 0#2) (hn : s.x ecx ≠ s.plat.tscNumber) (he : s.plat.msrExists (s.x ecx) = true) :
    exec .rdmsr s = .next (s.drawn.setEdxEax (Config.msrDraw s.draws (s.x ecx))) := by
  change execRdmsr s = _
  rw [execRdmsr, msrCheck_passes hc he, ok_bind, if_neg hn]
  rfl

theorem exec_wrmsr_other (hc : s.cpl = 0#2) (hn : s.x ecx ≠ s.plat.tscNumber) (he : s.plat.msrExists (s.x ecx) = true) :
    exec .wrmsr s = .refused (.otherMsrWrite (s.x ecx)) := by
  change execWrmsr s = _
  rw [execWrmsr, msrCheck_passes hc he, ok_bind, if_neg hn]
  rfl

end

/-- Settles O59: the check both make, then the TSC or another MSR. -/
theorem rdmsrAndWrmsrResults : Obligations.RdmsrAndWrmsrResults := by
  refine fun s => ⟨fun h => ?checks, fun hc hn => ⟨⟨_, exec_rdmsr_tsc hc hn, tscRead_edxEax s⟩, ?writeTsc⟩,
    fun hc hn he => ⟨?readOther, exec_wrmsr_other hc hn he⟩⟩
  case checks =>
    exact ⟨congrArg Effect.outcome (stops_first (msrCheck_gp h)), congrArg Effect.outcome (stops_first (msrCheck_gp h))⟩
  case writeTsc =>
    exact ⟨_, exec_wrmsr_tsc hc hn, BitVec.toNat_setWidth_of_le (by decide),
      ⟨fun _ _ => rfl, SameFpr.refl s, SameX87.refl s, SameXmm.refl s, rfl, rfl, SameMem.refl s, SameSystem.refl s⟩, rfl⟩
  case readOther =>
    exact ⟨_, exec_rdmsr_other hc hn he,
      ⟨fun _ hq => State.setEdxEax_x_ne _ _ hq, SameFpr.refl s, SameX87.refl s, SameXmm.refl s, rfl, rfl, SameMem.refl s,
        SameSystem.refl s⟩, rfl⟩

/-! ### CPUID (49 R366) -/

/-- The four registers written read back. -/
theorem State.setCpuid_x (s : State) (v : CpuidAnswer) :
    (s.setCpuid v).x eax = v.a ∧ (s.setCpuid v).x ebx = v.b ∧ (s.setCpuid v).x ecx = v.c ∧ (s.setCpuid v).x edx = v.d := by
  rw [State.setCpuid]
  refine ⟨?_, ?_, ?_, State.setX_x_self _ _ _⟩
  · rw [State.setX_x_ne _ _ (by decide), State.setX_x_ne _ _ (by decide), State.setX_x_ne _ _ (by decide), State.setX_x_self]
  · rw [State.setX_x_ne _ _ (by decide), State.setX_x_ne _ _ (by decide), State.setX_x_self]
  · rw [State.setX_x_ne _ _ (by decide), State.setX_x_self]

theorem State.setCpuid_x_ne (s : State) (v : CpuidAnswer) {q : Reg} (h : ¬q.toNat < 4) : (s.setCpuid v).x q = s.x q := by
  have hne {r : Reg} (hr : r.toNat < 4) : q ≠ r := fun e => h (e ▸ hr)
  rw [State.setCpuid, State.setX_x_ne _ _ (hne (by decide)), State.setX_x_ne _ _ (hne (by decide)),
    State.setX_x_ne _ _ (hne (by decide)), State.setX_x_ne _ _ (hne (by decide))]

/-- Leaf 0: the highest input and "GenuineIntel". -/
theorem Platform.cpuid_zero (p : Platform) : p.cpuid 0#32 = ⟨p.maxLeaf, 0x756E6547#32, 0x6C65746E#32, 0x49656E69#32⟩ := rfl

theorem Platform.maxLeaf_of_gen (p : Platform) :
    (p.gen = .pentiumMMX → p.maxLeaf = 1#32) ∧ (p.gen = .pentiumII → p.maxLeaf = 2#32) ∧
      (p.gen = .pentiumIII → p.maxLeaf = 2#32 ∨ p.maxLeaf = 3#32) := by
  rw [Platform.maxLeaf]
  refine ⟨fun h => by rw [h], fun h => by rw [h], fun h => ?_⟩
  rw [h]
  cases p.serialNumber
  · exact .inl rfl
  · exact .inr rfl

/-- Leaf 1: of the feature bits, those that R366 constrains are as the generation has them, whatever the rest is. -/
theorem Platform.cpuid_one_features (p : Platform) {k : Nat} (hk : featureMask.getLsbD k = true) :
    (p.cpuid 1#32).d.getLsbD k = p.features.getLsbD k := by
  have h32 : k < 32 := BitVec.lt_of_getLsbD hk
  change ((_ &&& ~~~featureMask) ||| p.features).getLsbD k = _
  rw [BitVec.getLsbD_or, BitVec.getLsbD_and, BitVec.getLsbD_not, hk, Bool.not_true, Bool.and_false, Bool.and_false, Bool.false_or]

theorem Platform.features_bits (p : Platform) :
    p.features.getLsbD 4 = true ∧ p.features.getLsbD 5 = true ∧ p.features.getLsbD 23 = true ∧ p.features.getLsbD 24 = p.fxsr ∧
      p.features.getLsbD 25 = (p.gen == .pentiumIII) := by
  rw [Platform.features]
  cases p.fxsr <;> cases p.gen == .pentiumIII <;> decide

/-- Settles O60: the registers CPUID writes, the vendor string and the constrained feature bits read off the answer. -/
theorem cpuidResults : Obligations.CpuidResults := by
  intro s
  obtain ⟨ha, hb, hc, hd⟩ := State.setCpuid_x s (s.plat.cpuid (s.x eax))
  refine ⟨s.setCpuid (s.plat.cpuid (s.x eax)), rfl, ⟨fun _ hq => State.setCpuid_x_ne s _ hq, SameFpr.refl s, SameX87.refl s,
    SameXmm.refl s, rfl, rfl, SameMem.refl s, SameSystem.refl s⟩, SameDraws.refl s, fun (h0 : s.x eax = 0#32) => ?leaf0,
    fun (h1 : s.x eax = 1#32) => ?leaf1⟩
  case leaf0 =>
    rw [h0, Platform.cpuid_zero] at ha hb hc hd ⊢
    obtain ⟨hmmx, hii, hiii⟩ := s.plat.maxLeaf_of_gen
    exact ⟨hb, hd, hc, fun hg => ha.trans (hmmx hg), fun hg => ha.trans (hii hg),
      fun hg => (hiii hg).imp ha.trans ha.trans⟩
  case leaf1 =>
    rw [h1] at ha hd ⊢
    have bit {k : Nat} (hk : featureMask.getLsbD k = true) := (congrArg (·.getLsbD k) hd).trans (s.plat.cpuid_one_features hk)
    obtain ⟨h4, h5, h23, h24, h25⟩ := s.plat.features_bits
    refine ⟨(bit rfl).trans h4, (bit rfl).trans h5, (bit rfl).trans h23, fun hg => (bit rfl).trans (h24.trans ?_),
      fun hg => (bit rfl).trans (h24.trans ?_), ?_, ha⟩
    · rw [Platform.fxsr, hg]
    · rw [Platform.fxsr, hg]
    · exact (Bool.eq_iff_iff.mp ((bit rfl).trans h25)).trans beq_iff_eq

end Sys2Proof.Machine
end

section
/-! PROOFS. LDMXCSR (48 R338), and the fields of the 512-byte area: where FXSAVE puts them (R340), what FXRSTOR makes of them (R341), and
that the one undoes the other. -/

namespace Sys2Proof.Machine

/-! ### LDMXCSR (48 R338) -/

theorem mxcsrIllegal_eq_true {v : Dword} : mxcsrIllegal v = true ↔ v &&& mxReserved ≠ 0#32 := by
  simp [mxcsrIllegal]

/-- MXCSR written: nothing else changes. -/
theorem keeps_setMxcsr (s : State) (v : Dword) :
    let t : State := { s with mxcsr := v }
    SameGpr s t ∧ SameFpr s t ∧ SameX87 s t ∧ SameXmm s t ∧ t.eflags = s.eflags ∧ SameMem s t ∧ SameSystem s t ∧ SameDraws s t :=
  ⟨SameGpr.refl s, SameFpr.refl s, SameX87.refl s, SameXmm.refl s, rfl, SameMem.refl s, SameSystem.refl s, SameDraws.refl s⟩

section
variable {s : State} {m : Mem}

/-- LDMXCSR, its checks and its load passed, looks at the reserved bits of the value. -/
theorem exec_ldmxcsr (hc : xmmReady s = true) (hr : reachable .read 4 false s (.mem m) = true) :
    exec (.ldmxcsr m) s =
      Effect.outcome (do
        raiseIf (mxcsrIllegal (s.mem.readValue (s.lin m) 32 4)) .gp s
        pure { s with mxcsr := s.mem.readValue (s.lin m) 32 4 }) := by
  have hload : load 32 4 false s (s.lin m) = .ok (s.mem.readValue (s.lin m) 32 4) := load_ok.mpr ⟨Bool.and_eq_true_iff.mp hr, rfl⟩
  change execLdmxcsr m s = _
  rw [execLdmxcsr, (xmmCheck_ok (u := ())).mpr hc, ok_bind, hload, ok_bind]

/-- Settles O53: a reserved bit is looked for before the value is loaded. -/
theorem ldmxcsrLoadsOrRaises : Obligations.LdmxcsrLoadsOrRaises := by
  intro s m hc hr v
  refine ⟨fun hv => ?_, fun hv => ⟨{ s with mxcsr := v }, ?_, rfl, keeps_setMxcsr s v⟩⟩
  · rw [exec_ldmxcsr hc hr, raiseIf_raises (mxcsrIllegal_eq_true.mpr hv)]
    rfl
  · rw [exec_ldmxcsr hc hr, raiseIf_passes (mxcsrIllegal_eq_false.mpr hv)]
    rfl

end

/-! ### Fields of a byte string -/

/-- From an offset on, the bytes are those of the field. -/
def FieldAt (bytes : List Byte) (off : Nat) (field : List Byte) : Prop := ∀ k < field.length, bytes[off + k]? = field[k]?

section
variable {xs ys field : List Byte} {off n : Nat}

theorem FieldAt.self (field : List Byte) : FieldAt field 0 field := fun k _ => by rw [Nat.zero_add]

theorem FieldAt.left (h : FieldAt xs off field) : FieldAt (xs ++ ys) off field := fun k hk => by
  have hsome : xs[off + k]? = some field[k] := (h k hk).trans (List.getElem?_eq_getElem hk)
  rw [List.getElem?_append_left (List.getElem?_eq_some_iff.mp hsome).1, h k hk]

theorem FieldAt.right (h : FieldAt ys off field) (hn : xs.length + off = n) : FieldAt (xs ++ ys) n field := fun k hk => by
  rw [← hn, List.getElem?_append_right (by omega), Nat.add_assoc, Nat.add_sub_cancel_left, h k hk]

/-- Of slots of one length, slot j (48 R340). -/
theorem FieldAt.slot {f : Nat → List Byte} {len : Nat} (hlen : ∀ j, (f j).length = len) {j : Nat} (hj : j < n)
    (h : FieldAt (f j) 0 field) : FieldAt ((List.range n).flatMap f) (len * j) field := by
  induction n with
  | zero => cases hj
  | succ n ih =>
    rw [List.range_succ, List.flatMap_append]
    obtain hlt | rfl := Nat.lt_succ_iff_lt_or_eq.mp hj
    · exact (ih hlt).left
    · refine FieldAt.right (off := 0) ?_ ?_
      · rw [List.flatMap_singleton]
        exact h
      · simp [List.length_flatMap, hlen, Nat.mul_comm]

/-- A field of a byte string written reads back byte by byte. -/
theorem FieldAt.read {m : Memory} {a : Addr} {bytes : List Byte} (hm : m.wf = true) (hl : bytes.length ≤ 2 ^ 32)
    (h : FieldAt bytes off field) {k : Nat} (hk : k < field.length) :
    (m.writeBytes a bytes).read (a + BitVec.ofNat 32 (off + k)).toNat = field[k] := by
  obtain ⟨hlt, hbyte⟩ := List.getElem?_eq_some_iff.mp ((h k hk).trans (List.getElem?_eq_getElem hk))
  rw [Memory.read_writeBytes_get hm a bytes hl hlt, hbyte]

/-- A value written as a field is held in memory (20_memory R70). -/
theorem FieldAt.holds {m : Memory} {t : State} {a : Addr} {bytes : List Byte} {w : Nat} {v : BitVec w} (hm : m.wf = true)
    (hl : bytes.length ≤ 2 ^ 32) (ht : t.mem = m.writeBytes a bytes) (h : FieldAt bytes off (valueBytes n v)) :
    Holds t (a + BitVec.ofNat 32 off) n v := fun k hk => by
  have hread := h.read (a := a) hm hl (k := k) (by rwa [valueBytes_length])
  rw [ht, BitVec.add_assoc, ← BitVec.ofNat_add, hread, valueBytes_get]

end

/-- A value held is read (20_memory R70). -/
theorem Holds.readValue {t : State} {a : Addr} {w n : Nat} {v : BitVec w} (h : Holds t a n v) (hw : w = 8 * n) :
    t.mem.readValue a w n = v := by
  have hbytes : t.mem.readBytes a n = valueBytes n v := by
    refine List.ext_getElem (by simp) fun k hk _ => ?_
    rw [Memory.readBytes_length] at hk
    simp only [Memory.readBytes_eq, List.getElem_map, addresses_get, valueBytes_get]
    exact h k hk
  have hlt : v.toNat < 256 ^ n := by
    subst hw
    exact v.isLt.trans_eq (Nat.pow_mul ..)
  rw [Memory.readValue, hbytes, valueBytes, leNat_leBytes _ _ hlt, BitVec.ofNat_toNat, BitVec.setWidth_eq]

/-! ### The fields of the image (48 R340) -/

section
variable (s : State)

theorem image_of_head {off : Nat} {field : List Byte} (h : FieldAt (imageHead s) off field) : FieldAt (fxsaveImage s) off field :=
  h.left.left.left

theorem image_cwr : FieldAt (fxsaveImage s) 0 (valueBytes 2 s.cwr) :=
  image_of_head s (.left (.left (.left (.left (.left (.self _))))))

theorem image_swr : FieldAt (fxsaveImage s) 2 (valueBytes 2 s.swr) :=
  image_of_head s (.left (.left (.left (.left (.right (.self _) (by simp))))))

theorem image_tags : FieldAt (fxsaveImage s) 4 [abridgedTags s.twr] :=
  image_of_head s (.left (.left (.left (.right (.self _) (by simp)))))

theorem image_mxcsr (hx : savesXmm s = true) : FieldAt (fxsaveImage s) 24 (valueBytes 4 s.mxcsr) := by
  have hfield : mxcsrField s = valueBytes 4 s.mxcsr := by rw [mxcsrField, if_pos hx]
  rw [← hfield]
  exact image_of_head s (.left (.right (.self _) (by simp)))

theorem image_fpr {j : Nat} (hj : j < 8) :
    FieldAt (fxsaveImage s) (32 + 16 * j) (valueBytes 10 (s.fp (tosOf s.swr + BitVec.ofNat 3 j))) := by
  have hslot : FieldAt ((List.range 8).flatMap (stackSlot s)) (16 * j) (valueBytes 10 (s.fp (tosOf s.swr + BitVec.ofNat 3 j))) :=
    .slot (stackSlot_length s) hj (.left (.self _))
  exact .left (.left (.right hslot (by simp)))

theorem image_xmm (hx : savesXmm s = true) {j : Nat} (hj : j < 8) :
    FieldAt (fxsaveImage s) (160 + 16 * j) (valueBytes 16 (s.xm (BitVec.ofNat 3 j))) := by
  have hfield : xmmSlot s j = valueBytes 16 (s.xm (BitVec.ofNat 3 j)) := by rw [xmmSlot, if_pos hx]
  rw [← hfield]
  exact .left (.right (.slot (xmmSlot_length s) hj (.self _)) (by simp [List.length_flatMap]))

end

/-- Bit i of a byte made of bits is bit i. -/
theorem getLsbD_ofBits (f : Nat → Bool) {i : Nat} (h : i < 8) : (ofBits f).getLsbD i = f i := by
  rw [ofBits]
  iterate 7 rw [BitVec.getLsbD_append]
  interval_cases i <;> simp

/-! ### FXSAVE (48 R340) -/

/-- What FXSAVE leaves. -/
def State.fxsaved (s : State) (a : Addr) : State := { s with mem := s.mem.writeBytes a (fxsaveImage s), draws := s.draws + 1 }

@[simp] theorem State.fxsaved_mem (s : State) (a : Addr) : (s.fxsaved a).mem = s.mem.writeBytes a (fxsaveImage s) := by
  rw [State.fxsaved]

theorem exec_fxsave {s : State} {m : Mem} (hc : fxReady s = true) (hr : reachable .write 512 true s (.mem m) = true) :
    exec (.fxsave m) s = .next (s.fxsaved (s.lin m)) :=
  outcome_next.mpr (bind_ok.mpr ⟨(), fxCheck_ok.mpr hc, bind_ok.mpr ⟨(), memCheck_ok.mpr (Bool.and_eq_true_iff.mp hr), rfl⟩⟩)

/-- A field of the image is in memory after FXSAVE. -/
theorem fxsaved_holds {s : State} (hm : s.mem.wf = true) (a : Addr) {off w n : Nat} {v : BitVec w}
    (h : FieldAt (fxsaveImage s) off (valueBytes n v)) : Holds (s.fxsaved a) (a + BitVec.ofNat 32 off) n v :=
  h.holds hm (by rw [fxsaveImage_length]; decide) (State.fxsaved_mem s a)

/-- Memory written inside the listed addresses, and draws used: nothing else changes. -/
theorem xmmWritesMem_setMem {s : State} {mem : Memory} {as : List Addr} (n : Nat)
    (h : ∀ a : Addr, a ∉ as → mem.read a.toNat = s.mem.read a.toNat) : XmmWritesMem s { s with mem := mem, draws := n } as :=
  ⟨h, SameGpr.refl s, SameFpr.refl s, SameX87.refl s, SameXmm.refl s, rfl, rfl, SameSystem.refl s, rfl⟩

/-- FXSAVE changes no byte outside the area and no register (48 R340). -/
theorem xmmWritesMem_fxsaved (s : State) (a : Addr) : XmmWritesMem s (s.fxsaved a) (addresses a 512) :=
  xmmWritesMem_setMem _ fun _ hb => Memory.read_writeBytes_ne _ (by rwa [fxsaveImage_length])

/-- Settles O54: the fields of the image stand at their offsets, and the image is all that is written. -/
theorem fxsaveWritesTheImage : Obligations.FxsaveWritesTheImage := by
  intro s m hc hm hr
  refine ⟨_, exec_fxsave hc hr, ?cwr, fxsaved_holds hm _ (image_swr s), fun i hi => ?tags,
    fun j hj => fxsaved_holds hm _ (image_fpr s hj), fun hx => ?xmm, xmmWritesMem_fxsaved s _, rfl⟩
  case cwr => simpa using fxsaved_holds hm (s.lin m) (image_cwr s)
  case tags =>
    have htag : (s.fxsaved (s.lin m)).mem.read (s.lin m + 4#32).toNat = abridgedTags s.twr := by
      rw [State.fxsaved_mem]
      exact (image_tags s).read hm (by rw [fxsaveImage_length]; decide) Nat.one_pos
    rw [htag, abridgedTags, getLsbD_ofBits _ hi, tagOf, bne, beq_eq_decide, decide_not]
  case xmm =>
    have hsaves : savesXmm s = true := by rw [savesXmm, hx, Bool.true_or]
    exact ⟨fxsaved_holds hm _ (image_mxcsr s hsaves), fun j hj => fxsaved_holds hm _ (image_xmm s hsaves hj)⟩

/-! ### FXRSTOR (48 R341) -/

/-- The entry of a register file made from its entries. -/
theorem ofCodes_get {α : Type} (f : Reg → α) (q : Reg) : (ofCodes f)[q.toNat]'(q.isLt) = f q := by
  obtain ⟨⟨i, hi⟩⟩ := q
  interval_cases i <;> rfl

/-- Field i of a tag word made of fields (10_state R26). -/
theorem elem_ofTags (f : Nat → BitVec 2) {i : Nat} (h : i < 8) : elem 2 (ofTags f) i = f i := by
  apply BitVec.eq_of_getLsbD_eq
  intro k hk
  rw [elem, BitVec.getLsbD_extractLsb', ofTags]
  iterate 7 rw [BitVec.getLsbD_append]
  interval_cases i <;> interval_cases k <;> simp

/-- The class of a loaded register as the statement words it: zero, special, or valid (48 R341). -/
theorem tagClass_eq (v : Fpr80) :
    tagClass v =
      if v.extractLsb' 0 79 = 0#79 then 1#2
      else if v.extractLsb' 64 15 = 0#15 ∨ v.extractLsb' 64 15 = 0x7FFF#15 ∨ v.getLsbD 63 = false then 2#2
      else 0#2 := by
  rw [tagClass]
  split
  · rfl
  · by_cases h : v.extractLsb' 64 15 = 0#15 ∨ v.extractLsb' 64 15 = 0x7FFF#15 ∨ v.getLsbD 63 = false
    · rw [if_pos h, if_neg (by simp only [← Bool.not_eq_true] at h; tauto)]
    · rw [if_neg h, if_pos (by simp only [← Bool.not_eq_true] at h; tauto)]

theorem loadX87_fp (s : State) (a : Addr) (q : Reg) : (loadX87 s a).fp q = areaFpr s a q := ofCodes_get _ q

theorem toNat_ofNat_reg {j : Nat} (hj : j < 8) : (BitVec.ofNat 3 j).toNat = j := by
  rw [BitVec.toNat_ofNat, Nat.mod_eq_of_lt hj]

/-- ST(j) is loaded from slot j. -/
theorem areaFpr_stack (s : State) (a : Addr) {j : Nat} (hj : j < 8) :
    areaFpr s a (tosOf (areaField s a 2 16 2) + BitVec.ofNat 3 j) = areaField s a (32 + 16 * j) 80 10 := by
  have hslot : (tosOf (areaField s a 2 16 2) + BitVec.ofNat 3 j - tosOf (areaField s a 2 16 2)).toNat = j := by
    rw [BitVec.add_comm, BitVec.add_sub_cancel, toNat_ofNat_reg hj]
  rw [areaFpr, hslot]

/-- A register file of XMM registers written whole. -/
theorem xm_ofCodes (t : State) (mx : Dword) (f : Reg → Xword) (q : Reg) :
    ({ t with mxcsr := mx, xmm := ofCodes f } : State).xm q = f q := ofCodes_get f q

/-- What FXRSTOR does to MXCSR and the XMM registers: all loaded, or, only where CR4.OSFXSR = 0, all kept; it touches nothing else (48 R340,
R341; log 21). -/
theorem loadXmm_cases (t s : State) (a : Addr) :
    ∃ mx xs, let u : State := { t with mxcsr := mx, xmm := xs }
      loadXmm t s a = u ∧
        ((u.mxcsr = areaField s a 24 32 4 ∧ ∀ q, u.xm q = areaField s a (160 + 16 * q.toNat) 128 16) ∨
          (s.osfxsr = false ∧ u.mxcsr = t.mxcsr ∧ SameXmm t u)) := by
  unfold loadXmm
  split
  · exact ⟨_, _, rfl, .inl ⟨rfl, xm_ofCodes t _ _⟩⟩
  · next h => exact ⟨_, _, rfl, .inr ⟨(Bool.or_eq_false_iff.mp (Bool.eq_false_iff.mpr h)).1, rfl, SameXmm.refl t⟩⟩

section
variable {s : State} {m : Mem}

/-- FXRSTOR, its checks passed, looks at the reserved bits of the image's MXCSR. -/
theorem exec_fxrstor (hc : fxReady s = true) (hr : reachable .read 512 true s (.mem m) = true) :
    exec (.fxrstor m) s =
      Effect.outcome (do
        raiseIf (mxcsrIllegal (areaField s (s.lin m) 24 32 4)) .gp s
        pure (loadXmm (loadX87 s (s.lin m)) s (s.lin m))) := by
  change execFxrstor m s = _
  rw [execFxrstor, (fxCheck_ok (u := ())).mpr hc, ok_bind, (memCheck_ok (u := ())).mpr (Bool.and_eq_true_iff.mp hr), ok_bind]

theorem exec_fxrstor_legal (hc : fxReady s = true) (hr : reachable .read 512 true s (.mem m) = true)
    (hv : areaField s (s.lin m) 24 32 4 &&& mxReserved = 0#32) :
    exec (.fxrstor m) s = .next (loadXmm (loadX87 s (s.lin m)) s (s.lin m)) := by
  rw [exec_fxrstor hc hr, raiseIf_passes (mxcsrIllegal_eq_false.mpr hv)]
  rfl

end

/-- Settles O55: the x87 part and the XMM part of the area, each loaded field by field. -/
theorem fxrstorLoadsTheImage : Obligations.FxrstorLoadsTheImage := by
  intro s m hc hr at'
  refine ⟨fun hv => ?illegal, fun hv => ?legal⟩
  case illegal =>
    have hillegal : mxcsrIllegal (areaField s (s.lin m) 24 32 4) = true := mxcsrIllegal_eq_true.mpr hv
    rw [exec_fxrstor hc hr, raiseIf_raises hillegal]
    rfl
  case legal =>
    obtain ⟨mx, xs, hload, hxmm⟩ := loadXmm_cases (loadX87 s (s.lin m)) s (s.lin m)
    refine ⟨{ loadX87 s (s.lin m) with mxcsr := mx, xmm := xs }, by rw [exec_fxrstor_legal hc hr hv, hload], rfl, rfl,
      fun j hj => (loadX87_fp s _ _).trans (areaFpr_stack s _ hj), fun i hi => ?tags, ?xmm, SameGpr.refl s, rfl, SameMem.refl s,
      SameSystem.refl s, SameDraws.refl s⟩
    case tags =>
      change elem 2 (ofTags (loadedTag (at' 4 8 1) (areaFpr s (s.lin m)))) i = _
      rw [elem_ofTags _ hi, loadedTag, tagClass_eq]
      cases (at' 4 8 1).getLsbD i with
      | false => rfl
      | true => rw [if_pos rfl, ← loadX87_fp]; rfl
    case xmm =>
      obtain ⟨hmx, hxm⟩ | ⟨hx, hmx, hxm⟩ := hxmm
      · exact .inl ⟨hmx, fun j hj => (hxm _).trans (by rw [toNat_ofNat_reg hj]; rfl)⟩
      · exact .inr ⟨hx, hmx, hxm⟩

/-! ### FXSAVE, then FXRSTOR from the same area (48 R340, R341) -/

/-- An address does not depend on memory, nor on the draws, and no more does whether it can be accessed. -/
theorem State.lin_setMem (s : State) (mem : Memory) (n : Nat) (m : Mem) : ({ s with mem := mem, draws := n } : State).lin m = s.lin m :=
  rfl

theorem reachable_setMem (s : State) (mem : Memory) (n : Nat) (acc : Access) (bytes : Nat) (al : Bool) (rm : RM) :
    reachable acc bytes al { s with mem := mem, draws := n } rm = reachable acc bytes al s rm := by
  cases rm <;> rfl

theorem SameSystem.trans {s t u : State} (h : SameSystem s t) (h' : SameSystem t u) : SameSystem s u := by
  obtain ⟨hpc, hsegs, hpending, hcr0, hcr4, hcpl, hplat⟩ := h
  obtain ⟨hpc', hsegs', hpending', hcr0', hcr4', hcpl', hplat'⟩ := h'
  exact ⟨hpc'.trans hpc, hsegs'.trans hsegs, hpending'.trans hpending, hcr0'.trans hcr0, hcr4'.trans hcr4, hcpl'.trans hcpl,
    hplat'.trans hplat⟩

/-- A field of the image is read back from the area. -/
theorem readValue_fxsaved {s : State} {a : Addr} (hm : s.mem.wf = true) {off w n : Nat} {v : BitVec w}
    (h : FieldAt (fxsaveImage s) off (valueBytes n v)) (hw : w = 8 * n) :
    (s.fxsaved a).mem.readValue (a + BitVec.ofNat 32 off) w n = v :=
  (fxsaved_holds hm a h).readValue hw

/-- Every register code is that of a stack slot, whatever TOS is. -/
theorem eq_tos_add (tos q : Reg) : q = tos + BitVec.ofNat 3 (q - tos).toNat := by
  rw [BitVec.ofNat_toNat, BitVec.setWidth_eq, BitVec.add_comm, BitVec.sub_add_cancel]

/-- Settles O56: every field of the area that FXRSTOR loads (`fxrstorLoadsTheImage`) is the one that FXSAVE wrote, its MXCSR legal by
the invariant. -/
theorem fxrstorUndoesFxsave : Obligations.FxrstorUndoesFxsave := by
  intro s m hc hx hi hw hr
  obtain ⟨hm, hlegal, -⟩ := State.inv_iff.mp hi
  have hsaves : savesXmm s = true := by rw [savesXmm, hx, Bool.true_or]
  obtain ⟨-, hgpr, -, -, -, -, heflags, hsystem, -⟩ := xmmWritesMem_fxsaved s (s.lin m)
  obtain ⟨-, hload⟩ := fxrstorLoadsTheImage (s.fxsaved (s.lin m)) m hc ((reachable_setMem s _ _ _ _ _ _).trans hr)
  have hlin : (s.fxsaved (s.lin m)).lin m = s.lin m := s.lin_setMem _ _ m
  rw [hlin] at hload
  have field {off w n : Nat} {v : BitVec w} := readValue_fxsaved (a := s.lin m) hm (off := off) (w := w) (n := n) (v := v)
  have hmx := field (image_mxcsr s hsaves) rfl
  obtain ⟨u, hnext, hcwr, hswr, hstack, -, ⟨hmxcsr, hxmm⟩ | ⟨hoff, -⟩, hgpr', heflags', -, hsystem', -⟩ :=
    hload ((congrArg (· &&& mxReserved) hmx).trans hlegal)
  · have hsw : u.swr = s.swr := hswr.trans (field (image_swr s) rfl)
    refine ⟨_, u, exec_fxsave hc hw, hnext, hcwr.trans (field (image_cwr s) rfl), hsw, hmxcsr.trans hmx, fun q => ?fpr, fun q => ?xmm,
      fun q => (hgpr' q).trans (hgpr q), heflags'.trans heflags, hsystem.trans hsystem'⟩
    case fpr =>
      have hj : (q - tosOf s.swr).toNat < 8 := (q - tosOf s.swr).isLt
      rw [eq_tos_add (tosOf s.swr) q]
      exact (hsw ▸ hstack _ hj).trans (field (image_fpr s hj) rfl)
    case xmm =>
      have hxm := (hxmm q.toNat q.isLt).trans (field (image_xmm s hsaves q.isLt) rfl)
      rwa [BitVec.ofNat_toNat, BitVec.setWidth_eq] at hxm
  · exact absurd hx (Bool.eq_false_iff.mp hoff)

end Sys2Proof.Machine
end
